-- ==== Sys2Proof/Word.lean ====
section
/-! DEFINITION. The word types of the CHIP-8 CORE (spec/10_state.md, spec/30_encoding.md R63).

Bit vectors stand only for what the spec adds, shifts, masks or stores as bits. All values are unsigned (R5). -/

namespace Sys2Proof

/-- An 8-bit value: a V register, a timer, a memory cell, the field `kk` (R10, R16, R18, R63). -/
abbrev Byte := BitVec 8

/-- A 16-bit value: I, PC, a stack entry, an opcode (R12, R13, R15, R62). -/
abbrev Word := BitVec 16

/-- The 12-bit address field `nnn` (R63). -/
abbrev Addr := BitVec 12

/-- A register number, the value of a field `x` or `y`: all 16 are legal (R10, R64). -/
abbrev RegNum := Fin 16

/-- A logical key code 0x0..0xF (R7, R30, R33). -/
abbrev KeyCode := Fin 16

/-- The level input `keys`, bit k for key code k (R30). -/
abbrev KeyLevels := BitVec 16

end Sys2Proof
end

