-- ==== Sys2Proof/Config.lean ====
section
/-! DEFINITION. The parameters of the block (spec/00_scope.md R4), the built-in font (spec/10_state.md R22) and the
free values of the two sampled inputs (R30, R31; assumption log 1). -/

namespace Sys2Proof.Config

/-- `MEM_SIZE`: the number of 8-bit cells of main memory (R4, R18). -/
@[simp] abbrev memSize : Nat := 4096

/-- `PROG_BASE`: where a program is loaded, and PC after reset (R4). -/
@[simp] abbrev progBase : Nat := 0x200

/-- `PROG_MAX`: the largest program length in bytes (R4, R191). -/
@[simp] abbrev progMax : Nat := 3584

/-- `STACK_ENTRIES`: the entries of the stack array (R4, R15). -/
@[simp] abbrev stackEntries : Nat := 16

/-- `STACK_MAX_DEPTH`: the most return addresses held at once (R4, D5). -/
@[simp] abbrev stackMaxDepth : Nat := 15

/-- `FB_W`: the framebuffer's width in pixels (R4, D26). -/
@[simp] abbrev fbW : Nat := 64

/-- `FB_H`: the framebuffer's height in pixels (R4, D26). -/
@[simp] abbrev fbH : Nat := 32

/-- The number of framebuffer cells, `FB_W * FB_H` (R19). -/
@[simp] abbrev fbCells : Nat := 2048

/-- `FONT_BASE`: the address of glyph 0 (R4, R22, D14; assumption log 10). -/
@[simp] abbrev fontBase : Nat := 0x000

/-- `FONT_ROM`, glyphs 0 to 7, five bytes a glyph, row 0 first (R22, assumption log 10). -/
def fontLow : List Byte :=
  [0xF0, 0x90, 0x90, 0x90, 0xF0] ++ [0x20, 0x60, 0x20, 0x20, 0x70] ++
  [0xF0, 0x10, 0xF0, 0x80, 0xF0] ++ [0xF0, 0x10, 0xF0, 0x10, 0xF0] ++
  [0x90, 0x90, 0xF0, 0x10, 0x10] ++ [0xF0, 0x80, 0xF0, 0x10, 0xF0] ++
  [0xF0, 0x80, 0xF0, 0x90, 0xF0] ++ [0xF0, 0x10, 0x20, 0x40, 0x40]

/-- `FONT_ROM`, glyphs 8 to F (R22, assumption log 10). -/
def fontHigh : List Byte :=
  [0xF0, 0x90, 0xF0, 0x90, 0xF0] ++ [0xF0, 0x90, 0xF0, 0x10, 0xF0] ++
  [0xF0, 0x90, 0xF0, 0x90, 0x90] ++ [0xE0, 0x90, 0xE0, 0x90, 0xE0] ++
  [0xF0, 0x80, 0x80, 0x80, 0xF0] ++ [0xE0, 0x90, 0x90, 0x90, 0xE0] ++
  [0xF0, 0x80, 0xF0, 0x80, 0xF0] ++ [0xF0, 0x80, 0xF0, 0x80, 0x80]

/-- `FONT_ROM`: 16 glyphs of 5 bytes (R22). -/
def fontRom : List Byte := fontLow ++ fontHigh

/-- The `n`-th free value of the input `keys`: any 16-bit level, under no law (R30, D28). It has no value to prove
anything about: a claim holds for every level. -/
opaque freeKeys : Nat → KeyLevels

/-- The `n`-th free value of the input `rnd`: "a free draw under no law" (R31, D18). -/
opaque freeRnd : Nat → Byte

end Sys2Proof.Config
end

