-- ==== Sys2Proof/Syntax.lean ====
section
/-! DEFINITION. The instructions of the CHIP-8 CORE: one constructor per row of spec/30_encoding.md R66 (and of
spec/opcode_table.json), in the table's order. Operands have the exact width of their field (R63, R64). -/

namespace Sys2Proof

inductive Instr where
  /-- `0000` HALT, the zero opcode (R80). -/
  | halt
  /-- `00E0` CLS (R81). -/
  | cls
  /-- `00EE` RET (R83). -/
  | ret
  /-- `1nnn` JP nnn (R84). -/
  | jp (nnn : Addr)
  /-- `2nnn` CALL nnn (R85). -/
  | call (nnn : Addr)
  /-- `3xkk` SE Vx, kk (R86). -/
  | seImm (x : RegNum) (kk : Byte)
  /-- `4xkk` SNE Vx, kk (R87). -/
  | sneImm (x : RegNum) (kk : Byte)
  /-- `5xy0` SE Vx, Vy (R88). -/
  | seReg (x y : RegNum)
  /-- `6xkk` LD Vx, kk (R101). -/
  | ldImm (x : RegNum) (kk : Byte)
  /-- `7xkk` ADD Vx, kk (R102). -/
  | addImm (x : RegNum) (kk : Byte)
  /-- `8xy0` LD Vx, Vy (R103). -/
  | ldReg (x y : RegNum)
  /-- `8xy1` OR Vx, Vy (R104). -/
  | orReg (x y : RegNum)
  /-- `8xy2` AND Vx, Vy (R105). -/
  | andReg (x y : RegNum)
  /-- `8xy3` XOR Vx, Vy (R106). -/
  | xorReg (x y : RegNum)
  /-- `8xy4` ADD Vx, Vy (R107). -/
  | addReg (x y : RegNum)
  /-- `8xy5` SUB Vx, Vy (R108). -/
  | subReg (x y : RegNum)
  /-- `8xy6` SHR Vx (R109); y is decoded and ignored (R69). -/
  | shr (x y : RegNum)
  /-- `8xy7` SUBN Vx, Vy (R110). -/
  | subnReg (x y : RegNum)
  /-- `8xyE` SHL Vx (R111); y is decoded and ignored (R69). -/
  | shl (x y : RegNum)
  /-- `9xy0` SNE Vx, Vy (R89). -/
  | sneReg (x y : RegNum)
  /-- `Annn` LD I, nnn (R112). -/
  | ldI (nnn : Addr)
  /-- `Bnnn` JP V0, nnn (R90). -/
  | jpV0 (nnn : Addr)
  /-- `Cxkk` RND Vx, kk (R120). -/
  | rnd (x : RegNum) (kk : Byte)
  /-- `Dxyn` DRW Vx, Vy, n (R121): n is the number of sprite rows, 0..15. -/
  | drw (x y : RegNum) (n : Fin 16)
  /-- `Ex9E` SKP Vx (R131). -/
  | skp (x : RegNum)
  /-- `ExA1` SKNP Vx (R132). -/
  | sknp (x : RegNum)
  /-- `Fx07` LD Vx, DT (R141). -/
  | ldVxDt (x : RegNum)
  /-- `Fx0A` LD Vx, K (R133). -/
  | ldVxK (x : RegNum)
  /-- `Fx15` LD DT, Vx (R142). -/
  | ldDtVx (x : RegNum)
  /-- `Fx18` LD ST, Vx (R143). -/
  | ldStVx (x : RegNum)
  /-- `Fx1E` ADD I, Vx (R144). -/
  | addI (x : RegNum)
  /-- `Fx29` LD F, Vx (R145). -/
  | ldF (x : RegNum)
  /-- `Fx33` LD B, Vx (R146). -/
  | ldB (x : RegNum)
  /-- `Fx55` LD [I], Vx (R147). -/
  | storeRegs (x : RegNum)
  /-- `Fx65` LD Vx, [I] (R148). -/
  | loadRegs (x : RegNum)
  deriving DecidableEq, Repr

end Sys2Proof
end

