-- ==== Sys2Proof/WellFormed.lean ====
section
/-! DEFINITION. What the spec requires of an instruction and of a program before the machine is given them. -/

namespace Sys2Proof

/-- The operand numbers of an instruction, each with the bound its field has (R63): register numbers and the row count
below 16, `kk` below 256, `nnn` below 4096. -/
def Instr.operandBounds : Instr → List (Nat × Nat)
  | .halt | .cls | .ret => []
  | .jp nnn | .call nnn | .ldI nnn | .jpV0 nnn => [(nnn.toNat, 0x1000)]
  | .seImm x kk | .sneImm x kk | .ldImm x kk | .addImm x kk | .rnd x kk => [(x.val, 16), (kk.toNat, 256)]
  | .seReg x y | .sneReg x y | .ldReg x y | .orReg x y | .andReg x y | .xorReg x y | .addReg x y | .subReg x y
  | .shr x y | .subnReg x y | .shl x y => [(x.val, 16), (y.val, 16)]
  | .drw x y n => [(x.val, 16), (y.val, 16), (n.val, 16)]
  | .skp x | .sknp x | .ldVxDt x | .ldVxK x | .ldDtVx x | .ldStVx x | .addI x | .ldF x | .ldB x | .storeRegs x
  | .loadRegs x => [(x.val, 16)]

/-- One operand fits its field. -/
def operandFits (p : Nat × Nat) : Bool := decide (p.1 < p.2)

/-- Every operand fits its field (R63, R64: every value of a field is legal in every instruction that has it). The
types of Instr's operands already say so, `Laws.wellFormed_true` proves it of every instruction: an ill-formed
instruction cannot be written (assumption log 18). -/
def Instr.wellFormed (i : Instr) : Bool := i.operandBounds.all operandFits

/-- A program the host may load: at most PROG_MAX bytes (R191, R194). -/
def programWellFormed (bytes : List Byte) : Bool := decide (bytes.length ≤ Config.progMax)

end Sys2Proof
end

