-- ==== Sys2Proof/Decode.lean ====
section
/-! DEFINITION. Decoding and encoding (spec/30_encoding.md R60 to R70).

`decodeWord` follows the decode order of R65: by the group `u`, then by the sub-opcode the group uses, every fixed bit
compared (R68, D7). `encode` is written from the same table, R66. `opcodeRow` is R66 itself, mask and match. -/

namespace Sys2Proof

/-- Why bytes are no instruction. -/
inductive DecodeReject where
  /-- The word matches no row of R66: an unknown opcode (R68). The step gives it its effect, PC + 2 and nothing else. -/
  | unknownOpcode (op : Word)
  /-- Fewer than the two bytes of an instruction (R62). A fetch always reads two, so no step meets this. -/
  | truncated
  deriving DecidableEq, Repr

/-! ### Fields (R63) -/

/-- `u`, bits 15:12. -/
def fieldU (op : Word) : BitVec 4 := op.extractLsb' 12 4
/-- `x`, bits 11:8. -/
def fieldX (op : Word) : RegNum := (op.extractLsb' 8 4).toFin
/-- `y`, bits 7:4. -/
def fieldY (op : Word) : RegNum := (op.extractLsb' 4 4).toFin
/-- `n`, bits 3:0. -/
def fieldN (op : Word) : Fin 16 := (op.extractLsb' 0 4).toFin
/-- `kk`, bits 7:0. -/
def fieldKK (op : Word) : Byte := op.extractLsb' 0 8
/-- `nnn`, bits 11:0. -/
def fieldNNN (op : Word) : Addr := op.extractLsb' 0 12

/-! ### The decoder (R65) -/

/-- Group 0 is decided by the whole word (R65, R70). -/
def decodeGroup0 (op : Word) : Except DecodeReject Instr :=
  if op = 0x0000 then .ok .halt
  else if op = 0x00E0 then .ok .cls
  else if op = 0x00EE then .ok .ret
  else .error (.unknownOpcode op)

/-- Group 8 is decided by `n` (R65). -/
def decodeGroup8 (op : Word) : Except DecodeReject Instr :=
  let x := fieldX op
  let y := fieldY op
  if fieldN op = 0x0 then .ok (.ldReg x y)
  else if fieldN op = 0x1 then .ok (.orReg x y)
  else if fieldN op = 0x2 then .ok (.andReg x y)
  else if fieldN op = 0x3 then .ok (.xorReg x y)
  else if fieldN op = 0x4 then .ok (.addReg x y)
  else if fieldN op = 0x5 then .ok (.subReg x y)
  else if fieldN op = 0x6 then .ok (.shr x y)
  else if fieldN op = 0x7 then .ok (.subnReg x y)
  else if fieldN op = 0xE then .ok (.shl x y)
  else .error (.unknownOpcode op)

/-- Group E is decided by `kk` (R65). -/
def decodeGroupE (op : Word) : Except DecodeReject Instr :=
  if fieldKK op = 0x9E then .ok (.skp (fieldX op))
  else if fieldKK op = 0xA1 then .ok (.sknp (fieldX op))
  else .error (.unknownOpcode op)

/-- Group F is decided by `kk` (R65). -/
def decodeGroupF (op : Word) : Except DecodeReject Instr :=
  let x := fieldX op
  if fieldKK op = 0x07 then .ok (.ldVxDt x)
  else if fieldKK op = 0x0A then .ok (.ldVxK x)
  else if fieldKK op = 0x15 then .ok (.ldDtVx x)
  else if fieldKK op = 0x18 then .ok (.ldStVx x)
  else if fieldKK op = 0x1E then .ok (.addI x)
  else if fieldKK op = 0x29 then .ok (.ldF x)
  else if fieldKK op = 0x33 then .ok (.ldB x)
  else if fieldKK op = 0x55 then .ok (.storeRegs x)
  else if fieldKK op = 0x65 then .ok (.loadRegs x)
  else .error (.unknownOpcode op)

/-- The instruction a 16-bit opcode is, or the unknown opcode by name (R60, R65, R66, R68). -/
def decodeWord (op : Word) : Except DecodeReject Instr :=
  if fieldU op = 0x0 then decodeGroup0 op
  else if fieldU op = 0x1 then .ok (.jp (fieldNNN op))
  else if fieldU op = 0x2 then .ok (.call (fieldNNN op))
  else if fieldU op = 0x3 then .ok (.seImm (fieldX op) (fieldKK op))
  else if fieldU op = 0x4 then .ok (.sneImm (fieldX op) (fieldKK op))
  else if fieldU op = 0x5 then
    if fieldN op = 0 then .ok (.seReg (fieldX op) (fieldY op)) else .error (.unknownOpcode op)
  else if fieldU op = 0x6 then .ok (.ldImm (fieldX op) (fieldKK op))
  else if fieldU op = 0x7 then .ok (.addImm (fieldX op) (fieldKK op))
  else if fieldU op = 0x8 then decodeGroup8 op
  else if fieldU op = 0x9 then
    if fieldN op = 0 then .ok (.sneReg (fieldX op) (fieldY op)) else .error (.unknownOpcode op)
  else if fieldU op = 0xA then .ok (.ldI (fieldNNN op))
  else if fieldU op = 0xB then .ok (.jpV0 (fieldNNN op))
  else if fieldU op = 0xC then .ok (.rnd (fieldX op) (fieldKK op))
  else if fieldU op = 0xD then .ok (.drw (fieldX op) (fieldY op) (fieldN op))
  else if fieldU op = 0xE then decodeGroupE op
  else decodeGroupF op

/-- The opcode in two bytes of an instruction stream, big-endian (R42): the byte at the lower address is bits 15:8. -/
def wordOfBytes (hi lo : Byte) : Word := hi ++ lo

/-- Decoding a byte sequence: the instruction at its head and the bytes after it (R42, R62). Total on any bytes. -/
def decodeBytes : List Byte → Except DecodeReject (Instr × List Byte)
  | hi :: lo :: rest =>
    match decodeWord (wordOfBytes hi lo) with
    | .ok i => .ok (i, rest)
    | .error e => .error e
  | _ => .error .truncated

/-- The bytes of an opcode as memory stores them, first byte first (R42). -/
def bytesOfWord (op : Word) : List Byte := [op.extractLsb' 8 8, op.extractLsb' 0 8]

/-- The word that an instruction of the table of `nbits` bits, numbered as spec/opcode_table.json numbers them, stands
for: bits above `nbits` are 0, bits 15:0 are the opcode (R62: every instruction is one 16-bit word). -/
def tableWord (nbits w : Nat) : Word := BitVec.ofNat 16 (w % 2 ^ nbits)

/-- What the decoder reads from an instruction whose bits are `w`, laid out in memory order. -/
def decodeTableWord (nbits w : Nat) : Option Instr :=
  match decodeBytes (bytesOfWord (tableWord nbits w)) with
  | .ok (i, _) => some i
  | .error _ => none

/-! ### The encoder (R66) -/

/-- The four bits of a register number or a row count. -/
def nibble (x : Fin 16) : BitVec 4 := BitVec.ofFin x

/-- Format `NNN`: `u nnn`. -/
def encNNN (u : BitVec 4) (nnn : Addr) : Word := u ++ nnn
/-- Format `XKK`: `u x kk`; format `X` is the same with `kk` fixed. -/
def encXKK (u : BitVec 4) (x : RegNum) (kk : Byte) : Word := u ++ nibble x ++ kk
/-- Format `XYN`: `u x y n`; format `XY` is the same with `n` fixed. -/
def encXYN (u : BitVec 4) (x y : RegNum) (n : Fin 16) : Word := u ++ nibble x ++ nibble y ++ nibble n

/-- The word of an instruction, row by row of R66. -/
def encode : Instr → Word
  | .halt => 0x0000
  | .cls => 0x00E0
  | .ret => 0x00EE
  | .jp nnn => encNNN 0x1 nnn
  | .call nnn => encNNN 0x2 nnn
  | .seImm x kk => encXKK 0x3 x kk
  | .sneImm x kk => encXKK 0x4 x kk
  | .seReg x y => encXYN 0x5 x y 0x0
  | .ldImm x kk => encXKK 0x6 x kk
  | .addImm x kk => encXKK 0x7 x kk
  | .ldReg x y => encXYN 0x8 x y 0x0
  | .orReg x y => encXYN 0x8 x y 0x1
  | .andReg x y => encXYN 0x8 x y 0x2
  | .xorReg x y => encXYN 0x8 x y 0x3
  | .addReg x y => encXYN 0x8 x y 0x4
  | .subReg x y => encXYN 0x8 x y 0x5
  | .shr x y => encXYN 0x8 x y 0x6
  | .subnReg x y => encXYN 0x8 x y 0x7
  | .shl x y => encXYN 0x8 x y 0xE
  | .sneReg x y => encXYN 0x9 x y 0x0
  | .ldI nnn => encNNN 0xA nnn
  | .jpV0 nnn => encNNN 0xB nnn
  | .rnd x kk => encXKK 0xC x kk
  | .drw x y n => encXYN 0xD x y n
  | .skp x => encXKK 0xE x 0x9E
  | .sknp x => encXKK 0xE x 0xA1
  | .ldVxDt x => encXKK 0xF x 0x07
  | .ldVxK x => encXKK 0xF x 0x0A
  | .ldDtVx x => encXKK 0xF x 0x15
  | .ldStVx x => encXKK 0xF x 0x18
  | .addI x => encXKK 0xF x 0x1E
  | .ldF x => encXKK 0xF x 0x29
  | .ldB x => encXKK 0xF x 0x33
  | .storeRegs x => encXKK 0xF x 0x55
  | .loadRegs x => encXKK 0xF x 0x65

/-- The row of R66 an instruction belongs to, as (mask, match): a word is of the row iff `word and mask = match`. -/
def opcodeRow : Instr → Word × Word
  | .halt => (0xFFFF, 0x0000)
  | .cls => (0xFFFF, 0x00E0)
  | .ret => (0xFFFF, 0x00EE)
  | .jp _ => (0xF000, 0x1000)
  | .call _ => (0xF000, 0x2000)
  | .seImm _ _ => (0xF000, 0x3000)
  | .sneImm _ _ => (0xF000, 0x4000)
  | .seReg _ _ => (0xF00F, 0x5000)
  | .ldImm _ _ => (0xF000, 0x6000)
  | .addImm _ _ => (0xF000, 0x7000)
  | .ldReg _ _ => (0xF00F, 0x8000)
  | .orReg _ _ => (0xF00F, 0x8001)
  | .andReg _ _ => (0xF00F, 0x8002)
  | .xorReg _ _ => (0xF00F, 0x8003)
  | .addReg _ _ => (0xF00F, 0x8004)
  | .subReg _ _ => (0xF00F, 0x8005)
  | .shr _ _ => (0xF00F, 0x8006)
  | .subnReg _ _ => (0xF00F, 0x8007)
  | .shl _ _ => (0xF00F, 0x800E)
  | .sneReg _ _ => (0xF00F, 0x9000)
  | .ldI _ => (0xF000, 0xA000)
  | .jpV0 _ => (0xF000, 0xB000)
  | .rnd _ _ => (0xF000, 0xC000)
  | .drw _ _ _ => (0xF000, 0xD000)
  | .skp _ => (0xF0FF, 0xE09E)
  | .sknp _ => (0xF0FF, 0xE0A1)
  | .ldVxDt _ => (0xF0FF, 0xF007)
  | .ldVxK _ => (0xF0FF, 0xF00A)
  | .ldDtVx _ => (0xF0FF, 0xF015)
  | .ldStVx _ => (0xF0FF, 0xF018)
  | .addI _ => (0xF0FF, 0xF01E)
  | .ldF _ => (0xF0FF, 0xF029)
  | .ldB _ => (0xF0FF, 0xF033)
  | .storeRegs _ => (0xF0FF, 0xF055)
  | .loadRegs _ => (0xF0FF, 0xF065)

end Sys2Proof
end

