-- ==== Sys2Proof/Machine/State.lean ====
section
/-! DEFINITION. The state of the block (spec/10_state.md R10 to R25), the events at its boundary (R28), and the state
after Reset (R25). Plain data throughout. -/

namespace Sys2Proof.Machine

/-- `STATUS` (R21): the two execution states of the engine and FAULTED. Its 2-bit code is `Status.code`. -/
inductive Status where
  | running
  | waiting
  | faulted
  deriving DecidableEq, Repr

/-- `CAUSE` (R21, R160): what fault stopped the engine. Its 2-bit code is `Cause.code`. -/
inductive Cause where
  | none
  | stackOverflow
  | stackUnderflow
  deriving DecidableEq, Repr

/-- The six events of the boundary (R28). A Step carries the levels it samples on the inputs `keys` and `rnd` (R29 to
R31). `keyEvent` carries one of the 16 key codes: the argument is 4 bits (R134). -/
inductive Event where
  | reset
  | load (bytes : List Byte)
  | step (keys : KeyLevels) (rnd : Byte)
  | tick
  | keyEvent (k : KeyCode)
  | redrawAck
  deriving DecidableEq, Repr

/-- Main memory: the cells that do not hold their reset byte, addresses strictly rising (assumption log 13). -/
abbrev Memory := List Host.Cell

/-- What memory cell `a` holds after Reset, and what a cell the list does not name reads as: FONT_ROM from FONT_BASE
on, 0 elsewhere (R18, R22, R25, R190). -/
def resetByte (a : Nat) : Byte :=
  if Config.fontBase ≤ a then Config.fontRom.getD (a - Config.fontBase) 0 else 0

/-- The canonical form of a memory: addresses below 4096, strictly rising, no cell that holds its reset byte. -/
def Memory.wf : Memory → Bool
  | [] => true
  | (a, b) :: m => decide (a < Config.memSize) && decide (b ≠ resetByte a) && m.all (fun c => decide (a < c.1)) && Memory.wf m

/-- The framebuffer: one 1-bit cell per pixel, kept as 32 rows of 64 cells; cell `FB[px + py * FB_W]` is bit `px` of
row `py` (R19, assumption log 19). -/
abbrev Framebuffer := Vector (BitVec Config.fbW) Config.fbH

/-- The framebuffer with every cell 0. -/
def Framebuffer.clear : Framebuffer := Vector.replicate Config.fbH 0

/-- The state of the block, and the host's side of the boundary. -/
structure State where
  /-- V0..VF (R10); VF is also the flag (R11). -/
  v : Vector Byte 16
  /-- The index register I (R12). -/
  i : Word
  /-- The program counter PC (R13). -/
  pc : Word
  /-- The stack pointer SP, the number of return addresses held (R14). -/
  sp : BitVec 8
  /-- The stack S[0]..S[15] (R15). -/
  stack : Vector Word Config.stackEntries
  /-- The delay timer DT (R16). -/
  dt : Byte
  /-- The sound timer ST (R17). -/
  st : Byte
  /-- Main memory (R18). -/
  mem : Memory
  /-- The framebuffer FB (R19). -/
  fb : Framebuffer
  /-- The redraw flag REDRAW (R20). -/
  redraw : Bool
  /-- STATUS (R21). -/
  status : Status
  /-- WX, the register a wait for a key will fill (R21). -/
  wx : RegNum
  /-- CAUSE (R21). -/
  cause : Cause
  /-- The level on the input `keys` during this Step (R30): an input, not state of the block (assumption log 1). -/
  keys : KeyLevels
  /-- The level on the input `rnd` during this Step (R31): an input, not state of the block (assumption log 1). -/
  rnd : Byte
  /-- How many Steps have taken their input levels from the free values (the model's own, assumption log 1). -/
  samples : Nat
  /-- The events the host is going to issue, oldest first (R28, D2; the model's own, assumption log 2). -/
  schedule : List Event
  deriving DecidableEq, Repr

/-- Why the model stops. The two faults of the block, StackOverflow and StackUnderflow (R160), are not here: the spec
gives the state they leave, so they are next states (R163, assumption log 4). -/
inductive Fault where
  /-- Raised by RET when SP is above 15, outside the stack array: a state outside R14's legal range that no event
  sequence after a Reset reaches (R38), for which the spec gives RET no effect. Safe: the model stops
  (assumption log 5). -/
  | stackIndexOutOfRange
  deriving DecidableEq, Repr

/-- Why the model gives an instruction no meaning. -/
inductive Refusal where
  /-- Raised by an arm of `exec` whose instruction has no meaning yet, with the instruction's mnemonic. Safe: the model
  stops. No arm is refused. -/
  | notModelled (mnemonic : String)
  deriving DecidableEq, Repr

/-- The state right after a Reset event (R25, R190). The last four fields are the model's own (assumption log 3). -/
def State.reset : State where
  v := Vector.replicate 16 0
  i := 0
  pc := BitVec.ofNat 16 Config.progBase
  sp := 0
  stack := Vector.replicate Config.stackEntries 0
  dt := 0
  st := 0
  mem := []
  fb := Framebuffer.clear
  redraw := true
  status := .running
  wx := 0
  cause := .none
  keys := 0
  rnd := 0
  samples := 0
  schedule := []

end Sys2Proof.Machine
end

