-- ==== Sys2Proof/Machine/Ops.lean ====
section
/-! DEFINITION. The named operations over registers, memory, stack and framebuffer, fetching, the fault entry, and the
sampling of the two inputs. Every meaning reads and writes the state through these. -/

namespace Sys2Proof.Machine

/-! ### Registers (R10 to R13) -/

/-- `V[x]` (R6, R10). -/
def State.getV (s : State) (x : RegNum) : Byte := s.v[x.val]

/-- `V[x] <- b` (R6, R10). -/
def State.setV (s : State) (x : RegNum) (b : Byte) : State := { s with v := s.v.set x.val b }

/-- `I <- w` (R12). -/
def State.setI (s : State) (w : Word) : State := { s with i := w }

/-- `pc <- target` (R6). -/
def State.setPc (s : State) (target : Word) : State := { s with pc := target }

/-- `PC <- (pc0 + 2) mod 65536`, the advance before an instruction's own effect (R61). -/
def State.advancePc (s : State) : State := s.setPc (s.pc + 2)

/-- A skip: when it is taken, 2 more on the advanced PC, modulo 65536 (R91). -/
def State.skipIf (s : State) (taken : Bool) : State := if taken then s.setPc (s.pc + 2) else s

/-- `DT <- b` (R142). -/
def State.setDt (s : State) (b : Byte) : State := { s with dt := b }

/-- `ST <- b` (R143). -/
def State.setSt (s : State) (b : Byte) : State := { s with st := b }

/-! ### Main memory (R41, R43) -/

/-- The byte of cell `a`, `a` below 4096. -/
def Memory.get : Memory → Nat → Byte
  | [], a => resetByte a
  | (c, b) :: m, a => if c = a then b else Memory.get m a

/-- Cell `a` now holds `b`; the list stays in canonical form. -/
def Memory.set : Memory → Nat → Byte → Memory
  | [], a, b => if b = resetByte a then [] else [(a, b)]
  | (c, d) :: m, a, b =>
    if c < a then (c, d) :: Memory.set m a b
    else if b = resetByte a then (if c = a then m else (c, d) :: m)
    else (a, b) :: (if c = a then m else (c, d) :: m)

/-- `MemRead(a, 1)`: the byte at cell `a mod 4096` (R6, R41). -/
def Memory.read (m : Memory) (a : Nat) : Byte := m.get (a % Config.memSize)

/-- `MemWrite(a, 1, b)`: cell `a mod 4096` now holds `b` (R6, R41). -/
def Memory.write (m : Memory) (a : Nat) (b : Byte) : Memory := m.set (a % Config.memSize) b

/-- Byte writes at `a`, `a + 1`, ..., in ascending order (R43). -/
def Memory.writeBytes (m : Memory) (a : Nat) : List Byte → Memory
  | [] => m
  | b :: bs => Memory.writeBytes (m.write a b) (a + 1) bs

/-- `MemRead(a, 1)` of the state's memory. -/
def State.memRead (s : State) (a : Nat) : Byte := s.mem.read a

/-- Byte writes at `a`, `a + 1`, ... of the state's memory. -/
def State.memWriteBytes (s : State) (a : Nat) (bs : List Byte) : State := { s with mem := s.mem.writeBytes a bs }

/-- `MemRead(PC, 2)`: two bytes, big-endian, each address reduced by itself (R41, R42, R60). -/
def State.fetchWord (s : State) : Word := wordOfBytes (s.memRead s.pc.toNat) (s.memRead (s.pc.toNat + 1))

/-! ### The stack (R14, R15) -/

/-- `S[k]`, where there is an entry `k`. -/
def State.stackAt (s : State) (k : Nat) : Option Word := s.stack[k]?

/-- CALL's push: `SP <- SP + 1`, then `S[SP] <- w` (R15, R85, D5). -/
def State.push (s : State) (w : Word) : State :=
  { s with sp := s.sp + 1, stack := s.stack.setIfInBounds (s.sp + 1).toNat w }

/-- RET's `SP <- SP - 1`; the entry keeps its contents (R15, R83, D5). -/
def State.dropTop (s : State) : State := { s with sp := s.sp - 1 }

/-! ### The framebuffer (R19, R81, R121) -/

/-- The cell of pixel column `px`, row `py`: the coordinates taken modulo the width and the height, index
`px + py * FB_W` (R19, R121). -/
def cellOf (px py : Nat) : Fin Config.fbCells :=
  ⟨px % Config.fbW + py % Config.fbH * Config.fbW, by
    have h₁ := Nat.mod_lt px (show Config.fbW > 0 by decide)
    have h₂ := Nat.mod_lt py (show Config.fbH > 0 by decide)
    simp only [Config.fbW, Config.fbH, Config.fbCells] at *
    omega⟩

/-- The row a framebuffer cell lies in. -/
def cellRow (j : Fin Config.fbCells) : Fin Config.fbH :=
  ⟨j.val / Config.fbW, by
    have h := j.isLt
    simp only [Config.fbW, Config.fbH, Config.fbCells] at *
    omega⟩

/-- `FB[j]`. -/
def Framebuffer.get (fb : Framebuffer) (j : Fin Config.fbCells) : Bool :=
  fb[(cellRow j).val].getLsbD (j.val % Config.fbW)

/-- `FB[j] <- FB[j] xor 1`, every other cell as it was. -/
def Framebuffer.flip (fb : Framebuffer) (j : Fin Config.fbCells) : Framebuffer :=
  fb.set (cellRow j).val (fb[(cellRow j).val] ^^^ BitVec.twoPow Config.fbW (j.val % Config.fbW))

/-- `FB[j]` (R6). -/
def State.pixel (s : State) (j : Fin Config.fbCells) : Bool := s.fb.get j

/-- One set sprite pixel on cell `j`: `hit` if the cell was 1, then `FB[j] <- FB[j] xor 1` (R121). -/
def flipCell (p : Framebuffer × Bool) (j : Fin Config.fbCells) : Framebuffer × Bool :=
  (Framebuffer.flip p.1 j, p.2 || Framebuffer.get p.1 j)

/-- The framebuffer after a sprite's set pixels are drawn on it, and whether one hit a cell that was 1 (R121). -/
def drawCells (fb : Framebuffer) (cells : List (Fin Config.fbCells)) : Framebuffer × Bool :=
  cells.foldl flipCell (fb, false)

/-- The framebuffer is replaced and REDRAW set (R20, R81, R121). -/
def State.showFb (s : State) (fb : Framebuffer) : State := { s with fb := fb, redraw := true }

/-! ### Control state (R21, R133, R163) -/

/-- The 2-bit code of STATUS (R21). -/
def Status.code : Status → BitVec 2
  | .running => 0
  | .waiting => 1
  | .faulted => 2

/-- The 2-bit code of CAUSE (R21, R160). -/
def Cause.code : Cause → BitVec 2
  | .none => 0
  | .stackOverflow => 1
  | .stackUnderflow => 2

/-- Fault entry, the one way an instruction raises a fault: CAUSE and STATUS are written and nothing else, so PC keeps
the faulting instruction's address (R163). The spec has no return from it: only Reset leaves FAULTED (R164), see
`State.onReset`. -/
def State.enterFault (s : State) (c : Cause) : State := { s with cause := c, status := .faulted }

/-- Entry into the wait for a key: `WX <- x`, `STATUS <- WAITING` (R133). -/
def State.enterWait (s : State) (x : RegNum) : State := { s with wx := x, status := .waiting }

/-! ### The sampled inputs (R29 to R31, assumption log 1) -/

/-- The levels on `keys` and `rnd` during this Step are these. -/
def State.withInputs (s : State) (keys : KeyLevels) (rnd : Byte) : State := { s with keys := keys, rnd := rnd }

/-- The levels on `keys` and `rnd` during this Step are the next free values. -/
def State.sampleFree (s : State) : State :=
  { s with keys := Config.freeKeys s.samples, rnd := Config.freeRnd s.samples, samples := s.samples + 1 }

end Sys2Proof.Machine
end

