-- ==== Sys2Proof/Machine/Operands.lean ====
section
/-! DEFINITION. The operand forms: what each field or implicit operand of an instruction denotes
(spec/30_encoding.md R63, R64, spec/44_fx.md R149). -/

namespace Sys2Proof.Machine

/-- `zext_16(nnn)`: the address field as a target or an index (R64). -/
def zextAddr (nnn : Addr) : Word := nnn.setWidth 16

/-- `zext_16(b)` (R6). -/
def zextByte (b : Byte) : Word := b.setWidth 16

/-- The flag register VF (R11). -/
@[simp] abbrev regF : RegNum := 15

/-- V0, the offset of `JP V0, nnn` (R10, R90). -/
@[simp] abbrev regZero : RegNum := 0

/-- The registers V0..Vx, V0 first: the operand of Fx55 (R147). -/
def State.regsUpTo (s : State) (x : RegNum) : List Byte := s.v.toList.take (x.val + 1)

/-- The registers after V0..Vx are loaded from `a`, `a + 1`, ..., `a + x` and the others left alone (R148). -/
def State.loadRegs (s : State) (a : Nat) (x : RegNum) : State :=
  { s with v := Vector.ofFn fun r => if r.val ≤ x.val then s.memRead (a + r.val) else s.getV r }

/-- The three digits of a byte, hundreds, tens, ones, each a byte (R146). -/
def bcdDigits (b : Byte) : List Byte :=
  [BitVec.ofNat 8 (b.toNat / 100), BitVec.ofNat 8 (b.toNat / 10 % 10), BitVec.ofNat 8 (b.toNat % 10)]

/-- The address of the glyph of the digit in the low nibble of `b`: `FONT_BASE + 5 * d` (R145, D15). -/
def glyphAddress (b : Byte) : Word := BitVec.ofNat 16 (Config.fontBase + 5 * (b.toNat % 16))

/-- Whether the logical key whose code is `k` is pressed: `k <= 15` and `keys[k] = 1`; a value above 15 is no key code
and counts as not pressed (R131, R132, D16). -/
def State.keyPressed (s : State) (k : Byte) : Bool := decide (k.toNat ≤ 15) && s.keys.getLsbD k.toNat

/-- Pixel `col` of a sprite row: bit 7 is column 0, the leftmost (R121, D12). -/
def spriteBit (b : Byte) (col : Nat) : Bool := b.getLsbD (7 - col)

/-- The framebuffer cells under the set pixels of one sprite row `b` drawn with its column 0 at `vx`, its row at `py`
(R121). -/
def rowCells (b : Byte) (vx py : Nat) : List (Fin Config.fbCells) :=
  (List.range 8).filterMap fun col => if spriteBit b col then some (cellOf (vx + col) py) else none

/-- The framebuffer cells under the set pixels of the `n`-row sprite at `base`, drawn at (`vx`, `vy`), in the order of
R121's loops. -/
def State.spriteCells (s : State) (base vx vy n : Nat) : List (Fin Config.fbCells) :=
  (List.range n).flatMap fun row => rowCells (s.memRead (base + row)) vx (vy + row)

end Sys2Proof.Machine
end

