-- ==== Sys2Proof/Machine/Flags.lean ====
section
/-! DEFINITION. The flag computations: the six instructions that write VF as a flag (spec/10_state.md R11) and the order
of the flag and the result (spec/41_load_alu.md R100). -/

namespace Sys2Proof.Machine

/-- A flag as VF holds it: 0 or 1 (R11). -/
def flagByte (b : Bool) : Byte := if b then 1 else 0

/-- Carry of `a + b`: 1 iff the exact sum is above 255 (R107). -/
def carryOf (a b : Byte) : Bool := decide (a.toNat + b.toNat > 255)

/-- No borrow of `a - b`: 1 iff `a >= b`; equal operands do not borrow (R108, R110, D9). -/
def noBorrow (a b : Byte) : Bool := decide (a.toNat ≥ b.toNat)

/-- The bit SHR shifts out: old bit 0 (R109). -/
def shiftedOutRight (a : Byte) : Bool := a.getLsbD 0

/-- The bit SHL shifts out: old bit 7 (R111). -/
def shiftedOutLeft (a : Byte) : Bool := a.getLsbD 7

/-- First `V[F] <- flag`, then `V[x] <- result`: with x = F the result wins (R100, D8). -/
def State.setFlagThenResult (s : State) (x : RegNum) (flag : Bool) (result : Byte) : State :=
  (s.setV regF (flagByte flag)).setV x result

end Sys2Proof.Machine
end

