-- ==== Sys2Proof/Machine/Flow.lean ====
section
/-! DEFINITION. Group 0 operations, jumps, calls and skips (spec/40_flow.md).

Each meaning is the whole effect of a Step on its opcode, the PC advance of R61 included (assumption log 8). -/

namespace Sys2Proof.Machine

/-- An answer of a meaning. -/
abbrev Result := Host.Outcome State Fault Refusal

/-- HALT: nothing is written, PC is not advanced (R80). -/
def execHalt (s : State) : Result := .next s

/-- CLS: every framebuffer cell 0, REDRAW set (R81). -/
def execCls (s : State) : Result := .next (s.advancePc.showFb Framebuffer.clear)

/-- RET: `pc <- S[SP]`, then `SP <- SP - 1`; with SP = 0 it raises StackUnderflow (R83, R162). With SP above 15, which
R14 and R38 rule out, there is no entry to read and the model stops (assumption log 5). -/
def execRet (s : State) : Result :=
  if s.sp = 0 then .next (s.enterFault .stackUnderflow)
  else
    match s.stackAt s.sp.toNat with
    | some target => .next (s.dropTop.setPc target)
    | none => .fault .stackIndexOutOfRange

/-- JP nnn (R84). -/
def execJp (nnn : Addr) (s : State) : Result := .next (s.advancePc.setPc (zextAddr nnn))

/-- CALL nnn: the advanced PC is pushed, then `pc <- nnn`; with SP >= 15 it raises StackOverflow (R85, R161). -/
def execCall (nnn : Addr) (s : State) : Result :=
  if s.sp.toNat ≥ Config.stackMaxDepth then .next (s.enterFault .stackOverflow)
  else .next ((s.advancePc.push s.advancePc.pc).setPc (zextAddr nnn))

/-- SE Vx, kk (R86). -/
def execSeImm (x : RegNum) (kk : Byte) (s : State) : Result := .next (s.advancePc.skipIf (s.getV x == kk))

/-- SNE Vx, kk (R87). -/
def execSneImm (x : RegNum) (kk : Byte) (s : State) : Result := .next (s.advancePc.skipIf (s.getV x != kk))

/-- SE Vx, Vy (R88). -/
def execSeReg (x y : RegNum) (s : State) : Result := .next (s.advancePc.skipIf (s.getV x == s.getV y))

/-- SNE Vx, Vy (R89). -/
def execSneReg (x y : RegNum) (s : State) : Result := .next (s.advancePc.skipIf (s.getV x != s.getV y))

/-- JP V0, nnn: `pc <- zext_16(nnn) + zext_16(V[0])` (R90). -/
def execJpV0 (nnn : Addr) (s : State) : Result :=
  .next (s.advancePc.setPc (zextAddr nnn + zextByte (s.getV regZero)))

end Sys2Proof.Machine
end

