-- ==== Sys2Proof/Machine/Alu.lean ====
section
/-! DEFINITION. Register loads, arithmetic, logic and shifts (spec/41_load_alu.md). Operands are read from the state
before the instruction (R100); none of these can fault or touch memory. -/

namespace Sys2Proof.Machine

/-- An instruction that writes `b` to `V[x]` and nothing else but PC. -/
def resultToV (s : State) (x : RegNum) (b : Byte) : Result := .next (s.advancePc.setV x b)

/-- An instruction that writes a flag and then a result (R100). -/
def flagAndResult (s : State) (x : RegNum) (flag : Bool) (b : Byte) : Result :=
  .next (s.advancePc.setFlagThenResult x flag b)

/-- LD Vx, kk (R101). -/
def execLdImm (x : RegNum) (kk : Byte) (s : State) : Result := resultToV s x kk

/-- ADD Vx, kk: the low 8 bits of the sum, no carry recorded (R102, D10). -/
def execAddImm (x : RegNum) (kk : Byte) (s : State) : Result := resultToV s x (s.getV x + kk)

/-- LD Vx, Vy (R103). -/
def execLdReg (x y : RegNum) (s : State) : Result := resultToV s x (s.getV y)

/-- OR Vx, Vy (R104). -/
def execOrReg (x y : RegNum) (s : State) : Result := resultToV s x (s.getV x ||| s.getV y)

/-- AND Vx, Vy (R105). -/
def execAndReg (x y : RegNum) (s : State) : Result := resultToV s x (s.getV x &&& s.getV y)

/-- XOR Vx, Vy (R106). -/
def execXorReg (x y : RegNum) (s : State) : Result := resultToV s x (s.getV x ^^^ s.getV y)

/-- ADD Vx, Vy: VF is the carry (R107). -/
def execAddReg (x y : RegNum) (s : State) : Result :=
  flagAndResult s x (carryOf (s.getV x) (s.getV y)) (s.getV x + s.getV y)

/-- SUB Vx, Vy: Vx - Vy, VF is 1 when Vx >= Vy (R108). -/
def execSubReg (x y : RegNum) (s : State) : Result :=
  flagAndResult s x (noBorrow (s.getV x) (s.getV y)) (s.getV x - s.getV y)

/-- SHR Vx: VF is old bit 0; the field y is ignored (R109, R69). -/
def execShr (x _y : RegNum) (s : State) : Result :=
  flagAndResult s x (shiftedOutRight (s.getV x)) (s.getV x >>> 1)

/-- SUBN Vx, Vy: Vy - Vx, VF is 1 when Vy >= Vx (R110). -/
def execSubnReg (x y : RegNum) (s : State) : Result :=
  flagAndResult s x (noBorrow (s.getV y) (s.getV x)) (s.getV y - s.getV x)

/-- SHL Vx: VF is old bit 7; the field y is ignored (R111, R69). -/
def execShl (x _y : RegNum) (s : State) : Result :=
  flagAndResult s x (shiftedOutLeft (s.getV x)) (s.getV x <<< 1)

/-- LD I, nnn (R112). -/
def execLdI (nnn : Addr) (s : State) : Result := .next (s.advancePc.setI (zextAddr nnn))

end Sys2Proof.Machine
end

