-- ==== Sys2Proof/Machine/Draw.lean ====
section
/-! DEFINITION. Random number and sprite draw (spec/42_rnd_drw.md). -/

namespace Sys2Proof.Machine

/-- RND Vx, kk: the level sampled on `rnd`, masked with kk (R120, R31). -/
def execRnd (x : RegNum) (kk : Byte) (s : State) : Result := resultToV s x (s.rnd &&& kk)

/-- What DRW Vx, Vy, n does to the framebuffer: coordinates, I and the sprite bytes are read before any write; each set
sprite pixel inverts its cell (R121). -/
def State.drawing (s : State) (x y : RegNum) (n : Fin 16) : Framebuffer × Bool :=
  drawCells s.fb (s.spriteCells s.i.toNat (s.getV x).toNat (s.getV y).toNat n.val)

/-- DRW Vx, Vy, n: the sprite is drawn, VF is the collision flag, REDRAW is set, with n = 0 too (R121, R122). -/
def execDrw (x y : RegNum) (n : Fin 16) (s : State) : Result :=
  .next ((s.advancePc.showFb (s.drawing x y n).1).setV regF (flagByte (s.drawing x y n).2))

end Sys2Proof.Machine
end

