-- ==== Sys2Proof/Machine/Fx.lean ====
section
/-! DEFINITION. The Fx family: timers, index, font, BCD, block transfer (spec/44_fx.md). Memory addresses wrap at the
memory, nothing can fault (R140, R41). -/

namespace Sys2Proof.Machine

/-- LD Vx, DT (R141). -/
def execLdVxDt (x : RegNum) (s : State) : Result := resultToV s x s.dt

/-- LD DT, Vx (R142). -/
def execLdDtVx (x : RegNum) (s : State) : Result := .next (s.advancePc.setDt (s.getV x))

/-- LD ST, Vx (R143). -/
def execLdStVx (x : RegNum) (s : State) : Result := .next (s.advancePc.setSt (s.getV x))

/-- ADD I, Vx: modulo 65536, VF not written (R144, D4, D10). -/
def execAddI (x : RegNum) (s : State) : Result := .next (s.advancePc.setI (s.i + zextByte (s.getV x)))

/-- LD F, Vx: I is the address of the glyph of Vx's low nibble (R145). -/
def execLdF (x : RegNum) (s : State) : Result := .next (s.advancePc.setI (glyphAddress (s.getV x)))

/-- LD B, Vx: the three digits at I, I + 1, I + 2; I unchanged (R146, D17). -/
def execLdB (x : RegNum) (s : State) : Result :=
  .next (s.advancePc.memWriteBytes s.i.toNat (bcdDigits (s.getV x)))

/-- LD [I], Vx: V0..Vx stored at I, I + 1, ...; I unchanged (R147, D17). -/
def execStoreRegs (x : RegNum) (s : State) : Result :=
  .next (s.advancePc.memWriteBytes s.i.toNat (s.regsUpTo x))

/-- LD Vx, [I]: V0..Vx loaded from I, I + 1, ...; I unchanged (R148, D17). -/
def execLoadRegs (x : RegNum) (s : State) : Result := .next (s.advancePc.loadRegs s.i.toNat x)

end Sys2Proof.Machine
end

