-- ==== Sys2Proof/Machine/Keypad.lean ====
section
/-! DEFINITION. Keypad instructions (spec/43_keypad.md). -/

namespace Sys2Proof.Machine

/-- SKP Vx: skip when the key is pressed (R131). -/
def execSkp (x : RegNum) (s : State) : Result := .next (s.advancePc.skipIf (s.keyPressed (s.getV x)))

/-- SKNP Vx: skip when the key is not pressed (R132). -/
def execSknp (x : RegNum) (s : State) : Result := .next (s.advancePc.skipIf (!s.keyPressed (s.getV x)))

/-- LD Vx, K: the engine waits for a KeyEvent; Vx is not written yet (R133). -/
def execLdVxK (x : RegNum) (s : State) : Result := .next (s.advancePc.enterWait x)

end Sys2Proof.Machine
end

