-- ==== Sys2Proof/Machine/Events.lean ====
section
/-! DEFINITION. The events of the boundary other than Step (spec/10_state.md R28, spec/60_exceptions.md R169), and the
outputs (R34 to R36). Reset is the only way out of FAULTED (R164): it stands beside the fault entry of Ops.lean. -/

namespace Sys2Proof.Machine

/-- Reset: every piece of the block's state to its reset value, whatever the state before (R190). What belongs to the
host stays: the levels last sampled, the counter of free values, the events still to come (assumption log 15). -/
def State.onReset (s : State) : State :=
  { State.reset with keys := s.keys, rnd := s.rnd, samples := s.samples, schedule := s.schedule }

/-- A Load of these bytes is refused as ProgramTooLarge (R191). -/
def loadError (bytes : List Byte) : Bool := !programWellFormed bytes

/-- Load: the bytes to 0x200 on, or nothing at all when they are more than PROG_MAX (R191, D21). -/
def State.onLoad (s : State) (bytes : List Byte) : State :=
  if loadError bytes then s else s.memWriteBytes Config.progBase bytes

/-- One timer's decrement: a timer at 0 stays at 0 (R170). -/
def countDown (t : Byte) : Byte := if t = 0 then 0 else t - 1

/-- Tick, in every STATUS (R170, R169). -/
def State.onTick (s : State) : State := { s with dt := countDown s.dt, st := countDown s.st }

/-- The byte a key code is stored as: zero-extended to 8 bits (R134). -/
def keyByte (k : KeyCode) : Byte := BitVec.ofNat 8 k.val

/-- KeyEvent(k): it ends a wait, and does nothing in RUNNING or FAULTED (R134, R169). -/
def State.onKeyEvent (s : State) (k : KeyCode) : State :=
  match s.status with
  | .waiting => { s.setV s.wx (keyByte k) with status := .running }
  | .running => s
  | .faulted => s

/-- RedrawAck: `REDRAW <- 0` (R34). -/
def State.onRedrawAck (s : State) : State := { s with redraw := false }

/-! ### Outputs -/

/-- The output `tone`: 1 iff ST > 0, at all times (R35, D19). -/
def State.tone (s : State) : Bool := decide (s.st ≠ 0)

/-- The output `waiting` (R36). -/
def State.waitingOut (s : State) : Bool := decide (s.status = .waiting)

/-- The output `faulted`; `cause` is readable beside it (R36). -/
def State.faultedOut (s : State) : Bool := decide (s.status = .faulted)

/-- The event the machine takes next: the oldest of the schedule; when the schedule is used up, a Step with free input
levels (assumption logs 1 and 2). -/
def State.nextEvent (s : State) : Event :=
  match s.schedule with
  | [] => .step (Config.freeKeys s.samples) (Config.freeRnd s.samples)
  | e :: _ => e

/-- A Step in this state executes a word that matches no row of R66: the engine is RUNNING and the word at PC is unknown
(R68). -/
def State.stepsOnUnknownOpcode (s : State) : Bool :=
  match s.status, decodeWord s.fetchWord with
  | .running, .error _ => true
  | _, _ => false

/-- The output `unknown_opcode` during the next event: a strobe of a Step on an unknown word, 0 during every other event
(R36, assumption log 7). -/
def State.unknownOpcodeOut (s : State) : Bool :=
  match s.nextEvent with
  | .step _ _ => s.stepsOnUnknownOpcode
  | .reset | .load _ | .tick | .keyEvent _ | .redrawAck => false

/-- The output `load_error` during the next event: a strobe of a Load that is refused, 0 during every other event (R36,
assumption log 7). -/
def State.loadErrorOut (s : State) : Bool :=
  match s.nextEvent with
  | .load bytes => loadError bytes
  | .reset | .step _ _ | .tick | .keyEvent _ | .redrawAck => false

end Sys2Proof.Machine
end

