-- ==== Sys2Proof/Machine/Run.lean ====
section
/-! DEFINITION. The Step event (spec/30_encoding.md R60) and the events in the order the host issues them
(spec/60_exceptions.md R169). -/

namespace Sys2Proof.Machine

/-- One Step in RUNNING: fetch, decode, execute; an unknown opcode only advances PC (R60, R68). -/
def State.runInstruction (s : State) : Result :=
  match decodeWord s.fetchWord with
  | .ok i => exec i s
  | .error _ => .next s.advancePc

/-- A Step event: in RUNNING one instruction, run on the state with its input levels sampled; in WAITING and FAULTED
nothing changes (R29, R169, D20). -/
def State.onStep (s sampled : State) : Result :=
  match s.status with
  | .running => sampled.runInstruction
  | .waiting => .next s
  | .faulted => .next s

/-- One event of the host, by R169's table. -/
def State.takeEvent (s : State) : Event → Result
  | .reset => .next s.onReset
  | .load bytes => .next (s.onLoad bytes)
  | .step keys rnd => s.onStep (s.withInputs keys rnd)
  | .tick => .next s.onTick
  | .keyEvent k => .next (s.onKeyEvent k)
  | .redrawAck => .next s.onRedrawAck

/-- The next event: the oldest of the schedule; when the schedule is used up, a Step with free input levels
(R28, D2; assumption logs 1 and 2). -/
def State.takeNext (s : State) : Result :=
  match s.schedule with
  | [] => s.onStep s.sampleFree
  | e :: rest => State.takeEvent { s with schedule := rest } e

/-- The state in which the very next event is a Step in RUNNING that fetches the word `op` (assumption log 14). -/
def State.withOpcode (s : State) (op : Word) : State :=
  { s.memWriteBytes s.pc.toNat (bytesOfWord op) with status := .running, cause := .none, schedule := [] }

end Sys2Proof.Machine
end

