-- ==== Sys2Proof/Machine/Step.lean ====
section
/-! DEFINITION. The step function: one event of the boundary (spec/10_state.md R28). -/

namespace Sys2Proof.Machine

/-- One event: the next of the host's schedule, or a Step when the schedule is used up. -/
def step (s : State) : Host.Outcome State Fault Refusal := s.takeNext

/-- `s` with the instruction whose bits are `w`, numbered as spec/opcode_table.json numbers them, stored at PC, in
RUNNING and with no event before the next Step (assumption log 14). -/
def State.withFetchWord (s : State) (nbits w : Nat) : State := s.withOpcode (tableWord nbits w)

end Sys2Proof.Machine
end

