-- ==== Sys2Proof/Safety.lean ====
section
/-! DEFINITION. The words claims use: the invariant of spec/10_state.md R38, the end of a run
(spec/70_reset_and_hazards.md R197), and what one state leaves as it was in another. -/

namespace Sys2Proof.Machine

/-- The invariants of R38 that the types do not already say, and the canonical form of the memory. -/
structure State.Inv (s : State) : Prop where
  /-- `0 <= SP <= 15`. -/
  spLegal : s.sp.toNat ≤ Config.stackMaxDepth
  /-- `CAUSE != 0` iff `STATUS = FAULTED`. -/
  causeIffFaulted : s.cause ≠ .none ↔ s.status = .faulted
  /-- `S[0] = 0`. -/
  bottomZero : s.stackAt 0 = some 0
  /-- The memory is in canonical form (assumption log 13). -/
  memWf : s.mem.wf = true

/-- The end of a run: RUNNING with the zero word at PC; FAULTED is never final (R80, R164, R197). -/
def State.finished (s : State) : Bool := decide (s.status = .running) && decide (s.fetchWord = 0)

/-! ### What stays as it was -/

/-- The parts of the state other than the V registers. -/
inductive Part where
  | i | pc | sp | stack | dt | st | mem | fb | redraw | status | wx | cause | keys | rnd | samples | schedule
  deriving DecidableEq, Repr

/-- This part of `t` is as it was in `s`: of the stack every entry, of the memory every byte, of the framebuffer every
cell. -/
def Part.same : Part → State → State → Prop
  | .i, s, t => t.i = s.i
  | .pc, s, t => t.pc = s.pc
  | .sp, s, t => t.sp = s.sp
  | .stack, s, t => ∀ k, t.stackAt k = s.stackAt k
  | .dt, s, t => t.dt = s.dt
  | .st, s, t => t.st = s.st
  | .mem, s, t => ∀ a, t.memRead a = s.memRead a
  | .fb, s, t => ∀ j, t.pixel j = s.pixel j
  | .redraw, s, t => t.redraw = s.redraw
  | .status, s, t => t.status = s.status
  | .wx, s, t => t.wx = s.wx
  | .cause, s, t => t.cause = s.cause
  | .keys, s, t => t.keys = s.keys
  | .rnd, s, t => t.rnd = s.rnd
  | .samples, s, t => t.samples = s.samples
  | .schedule, s, t => t.schedule = s.schedule

/-- From `s` to `t` nothing changes but the V registers in `regs` and the parts in `parts`. -/
def OnlyChanges (s t : State) (regs : List RegNum) (parts : List Part) : Prop :=
  (∀ r, r ∉ regs → t.getV r = s.getV r) ∧ ∀ p, p ∉ parts → p.same s t

/-- The V registers an instruction may write (R26): Vx as the destination, VF as the flag, V0..Vx for Fx65. LD Vx, K
writes none: its register is written by the KeyEvent (R133, R134). -/
def instrWritesV : Instr → List RegNum
  | .ldImm x _ | .addImm x _ | .ldReg x _ | .orReg x _ | .andReg x _ | .xorReg x _ | .rnd x _ | .ldVxDt x => [x]
  | .addReg x _ | .subReg x _ | .shr x _ | .subnReg x _ | .shl x _ => [x, 15]
  | .drw _ _ _ => [15]
  | .loadRegs x => (List.finRange 16).filter fun r => decide (r.val ≤ x.val)
  | .halt | .cls | .ret | .jp _ | .call _ | .seImm _ _ | .sneImm _ _ | .seReg _ _ | .sneReg _ _ | .ldI _ | .jpV0 _
  | .skp _ | .sknp _ | .ldVxK _ | .ldDtVx _ | .ldStVx _ | .addI _ | .ldF _ | .ldB _ | .storeRegs _ => []

/-- The other parts of the state an instruction may write (R26). -/
def instrWritesParts : Instr → List Part
  | .halt => []
  | .cls => [.pc, .fb, .redraw]
  | .ret => [.pc, .sp, .status, .cause]
  | .call _ => [.pc, .sp, .stack, .status, .cause]
  | .ldI _ | .addI _ | .ldF _ => [.pc, .i]
  | .drw _ _ _ => [.pc, .fb, .redraw]
  | .ldVxK _ => [.pc, .status, .wx]
  | .ldDtVx _ => [.pc, .dt]
  | .ldStVx _ => [.pc, .st]
  | .ldB _ | .storeRegs _ => [.pc, .mem]
  | .jp _ | .jpV0 _ | .seImm _ _ | .sneImm _ _ | .seReg _ _ | .sneReg _ _ | .skp _ | .sknp _ | .ldImm _ _
  | .addImm _ _ | .ldReg _ _ | .orReg _ _ | .andReg _ _ | .xorReg _ _ | .addReg _ _ | .subReg _ _ | .shr _ _
  | .subnReg _ _ | .shl _ _ | .rnd _ _ | .ldVxDt _ | .loadRegs _ => [.pc]

/-- The six skips (R91). -/
def isSkip : Instr → Bool
  | .seImm _ _ | .sneImm _ _ | .seReg _ _ | .sneReg _ _ | .skp _ | .sknp _ => true
  | .halt | .cls | .ret | .jp _ | .call _ | .ldImm _ _ | .addImm _ _ | .ldReg _ _ | .orReg _ _ | .andReg _ _
  | .xorReg _ _ | .addReg _ _ | .subReg _ _ | .shr _ _ | .subnReg _ _ | .shl _ _ | .ldI _ | .jpV0 _ | .rnd _ _
  | .drw _ _ _ | .ldVxDt _ | .ldVxK _ | .ldDtVx _ | .ldStVx _ | .addI _ | .ldF _ | .ldB _ | .storeRegs _
  | .loadRegs _ => false

/-- The instructions that assign PC, and HALT, which leaves it (R13, R80, R92). -/
def setsPc : Instr → Bool
  | .halt | .ret | .jp _ | .call _ | .jpV0 _ => true
  | .cls | .seImm _ _ | .sneImm _ _ | .seReg _ _ | .sneReg _ _ | .skp _ | .sknp _ | .ldImm _ _ | .addImm _ _
  | .ldReg _ _ | .orReg _ _ | .andReg _ _ | .xorReg _ _ | .addReg _ _ | .subReg _ _ | .shr _ _ | .subnReg _ _
  | .shl _ _ | .ldI _ | .rnd _ _ | .drw _ _ _ | .ldVxDt _ | .ldVxK _ | .ldDtVx _ | .ldStVx _ | .addI _ | .ldF _
  | .ldB _ | .storeRegs _ | .loadRegs _ => false

/-- Cell `j` lies under a set pixel of the sprite that `DRW Vx, Vy, n` draws in state `s`: R121's `px`, `py` and
`b[7 - col]`, with the sprite rows read at I, I + 1, ... -/
def SpriteCovers (s : State) (x y : RegNum) (n : Fin 16) (j : Fin 2048) : Prop :=
  ∃ row < n.val, ∃ col < 8, (s.memRead (s.i.toNat + row)).getLsbD (7 - col) = true ∧
    j.val = ((s.getV x).toNat + col) % 64 + ((s.getV y).toNat + row) % 32 * 64

/-- The parts that belong to the host's side of the boundary, not to the block (R24, R27; assumption logs 1, 2). -/
abbrev hostParts : List Part := [.keys, .rnd, .samples, .schedule]

end Sys2Proof.Machine
end

