-- ==== Sys2Proof/Certificates/Slice0/Obligations.lean ====
section
/-! DEFINITION. The statements for the provers. Each states a rule of spec/ of the machine; the frame of an instruction
is `OnlyChanges s t regs parts`: nothing changed but those V registers and those parts. Where a clause rests on a
decision the spec marks as its own (D<n>) or on a choice of the model (assumption log <n>), the docstring says so. -/

open Sys2Proof Sys2Proof.Machine

/-! ### Reset and the events of the host -/

/-- 10_state.md R25: what reset leaves. REDRAW = 1 is the spec's decision D13; STATUS, WX, CAUSE D22; the font's place
D14. -/
def Obligations.ResetStateValues : Prop :=
  (∀ r, State.reset.getV r = 0) ∧ State.reset.i = 0 ∧ State.reset.pc = 0x200 ∧ State.reset.sp = 0 ∧
  (∀ k < 16, State.reset.stackAt k = some 0) ∧ State.reset.dt = 0 ∧ State.reset.st = 0 ∧
  (∀ k, (h : k < 80) → State.reset.memRead k = Config.fontRom[k]'(by exact h)) ∧
  (∀ a, 80 ≤ a → a < 4096 → State.reset.memRead a = 0) ∧
  (∀ j, State.reset.pixel j = false) ∧ State.reset.redraw = true ∧ State.reset.status = .running ∧
  State.reset.wx = 0 ∧ State.reset.cause = .none ∧ State.reset.tone = false

/-- 70_reset_and_hazards.md R190: a Reset event gives every piece of the block's state its reset value, whatever the
state before. That the host's side is kept is the model's choice (assumption log 15). -/
def Obligations.ResetEventFromAnyState : Prop :=
  ∀ (s : State) (rest : List Event), s.schedule = .reset :: rest →
    ∃ t, step s = .next t ∧ OnlyChanges State.reset t [] hostParts ∧ t.mem = [] ∧ t.schedule = rest ∧
      t.keys = s.keys ∧ t.rnd = s.rnd ∧ t.samples = s.samples

/-- 70_reset_and_hazards.md R191: Load copies at most 3584 bytes to 0x200 on and touches nothing else; a longer program
is refused whole (the spec's decision D21) and `load_error` says so. -/
def Obligations.LoadCopiesOrRefuses : Prop :=
  ∀ (s : State) (bytes : List Byte) (rest : List Event), s.mem.wf = true → s.schedule = .load bytes :: rest →
    ∃ t, step s = .next t ∧ t.schedule = rest ∧ OnlyChanges s t [] [.mem, .schedule] ∧
      (s.loadErrorOut = true ↔ bytes.length > 3584) ∧
      (bytes.length ≤ 3584 →
        (∀ k, (h : k < bytes.length) → t.memRead (0x200 + k) = bytes[k]) ∧
        ∀ a, (a % 4096 < 0x200 ∨ 0x200 + bytes.length ≤ a % 4096) → t.memRead a = s.memRead a) ∧
      (bytes.length > 3584 → ∀ a, t.memRead a = s.memRead a)

/-- 60_exceptions.md R170: a Tick counts both timers down, neither below 0, in every STATUS (the spec's decision D20),
and the tone is ST > 0 (10_state.md R35, the spec's decision D19). -/
def Obligations.TickCountsDown : Prop :=
  ∀ (s : State) (rest : List Event), s.schedule = .tick :: rest →
    ∃ t, step s = .next t ∧ t.schedule = rest ∧ t.dt.toNat = s.dt.toNat - 1 ∧ t.st.toNat = s.st.toNat - 1 ∧
      (t.tone = true ↔ s.st.toNat > 1) ∧ OnlyChanges s t [] [.dt, .st, .schedule]

/-- 43_keypad.md R134: a KeyEvent ends a wait and writes the code to V[WX]; in RUNNING and FAULTED it does nothing (the
spec's decision D20). -/
def Obligations.KeyEventEndsWait : Prop :=
  ∀ (s : State) (k : KeyCode) (rest : List Event), s.schedule = .keyEvent k :: rest →
    ∃ t, step s = .next t ∧ t.schedule = rest ∧
      (s.status = .waiting → (t.getV s.wx).toNat = k.val ∧ t.status = .running ∧
        OnlyChanges s t [s.wx] [.status, .schedule]) ∧
      (s.status ≠ .waiting → OnlyChanges s t [] [.schedule])

/-- 10_state.md R34: RedrawAck clears REDRAW, "nothing else". -/
def Obligations.RedrawAckClears : Prop :=
  ∀ (s : State) (rest : List Event), s.schedule = .redrawAck :: rest →
    ∃ t, step s = .next t ∧ t.schedule = rest ∧ t.redraw = false ∧ OnlyChanges s t [] [.redraw, .schedule]

/-- 10_state.md R29, 60_exceptions.md R169: a Step in WAITING or FAULTED changes nothing (the spec's decision D20),
whether the schedule gives it or is used up (the schedule is the model's, assumption log 2). -/
def Obligations.StepIneffectiveUnlessRunning : Prop :=
  ∀ (s : State), s.status ≠ .running →
    (s.schedule = [] → step s = .next s) ∧
    (∀ keys rnd rest, s.schedule = .step keys rnd :: rest → step s = .next { s with schedule := rest })

/-- 30_encoding.md R60: in RUNNING a Step on a word that decodes to `i` is `exec i`, on the state with the two input
levels of this Step: those the schedule gives, or, when it is used up, any (assumption logs 1, 2). `exec` holds the PC
advance of R61 (assumption log 8). -/
def Obligations.StepRunsDecodedInstruction : Prop :=
  ∀ (s : State) (i : Instr), s.status = .running →
    decodeWord (s.memRead s.pc.toNat ++ s.memRead (s.pc.toNat + 1)) = .ok i →
    (s.schedule = [] → step s = exec i { s with
      keys := Config.freeKeys s.samples, rnd := Config.freeRnd s.samples, samples := s.samples + 1 }) ∧
    (∀ keys rnd rest, s.schedule = .step keys rnd :: rest →
      step s = exec i { s with keys := keys, rnd := rnd, schedule := rest })

/-- 30_encoding.md R68: an unknown opcode only advances PC, and the strobe `unknown_opcode` is 1 for that Step. Exact
matching is the spec's decision D7. -/
def Obligations.UnknownOpcodeOnlyAdvancesPc : Prop :=
  ∀ (s : State) (keys : KeyLevels) (rnd : Byte) (rest : List Event) (op : Word), s.status = .running →
    s.memRead s.pc.toNat ++ s.memRead (s.pc.toNat + 1) = op → (∀ i, decodeWord op ≠ .ok i) →
    s.schedule = .step keys rnd :: rest →
    ∃ t, step s = .next t ∧ t.pc = s.pc + 2 ∧ s.unknownOpcodeOut = true ∧
      OnlyChanges s t [] [.pc, .keys, .rnd, .schedule]

/-! ### Encoding -/

/-- Words written out from 30_encoding.md R66, decoded. -/
def Obligations.SampleWordsDecode : Prop :=
  decodeWord 0b0000000000000000 = .ok .halt ∧
  decodeWord 0b0000000011101110 = .ok .ret ∧
  decodeWord 0b0010001100000000 = .ok (.call 0x300) ∧
  decodeWord 0b1000000100100101 = .ok (.subReg 1 2) ∧
  decodeWord 0b1101000101011111 = .ok (.drw 1 5 15) ∧
  decodeWord 0b1110001010011110 = .ok (.skp 2) ∧
  decodeWord 0b1111001001100101 = .ok (.loadRegs 2)

/-- 30_encoding.md R63, R66: decoding the word of any instruction, with any operands, gives it back. -/
def Obligations.DecodeEncodeRoundTrip : Prop :=
  ∀ i : Instr, i.wellFormed = true → decodeWord (encode i) = .ok i ∧
    decodeBytes (bytesOfWord (encode i)) = .ok (i, [])

/-- 30_encoding.md R63, R69: a word that decodes to an instruction is the word of that instruction: no bit of a word is
dropped, the ignored field of SHR and SHL included. -/
def Obligations.EncodeDecodeRoundTrip : Prop :=
  ∀ (op : Word) (i : Instr), decodeWord op = .ok i → encode i = op

/-- 30_encoding.md R65, R66: the decoder, which goes by groups, and the table's masks and matches say the same: a word
decodes exactly when it is of some row, to an instruction of that row, and no word is of two rows. -/
def Obligations.DecoderFollowsOpcodeTable : Prop :=
  ∀ op : Word,
    (∀ i, decodeWord op = .ok i → op &&& (opcodeRow i).1 = (opcodeRow i).2) ∧
    (∀ i, op &&& (opcodeRow i).1 = (opcodeRow i).2 → ∃ j, decodeWord op = .ok j ∧ opcodeRow j = opcodeRow i)

/-- 30_encoding.md R68: the unknown words are exactly those of its list. Exact matching is the spec's decision D7. -/
def Obligations.UnknownWordsAreListed : Prop :=
  ∀ op : Word, (∀ i, decodeWord op ≠ .ok i) ↔
    (op.toNat / 4096 = 0x0 ∧ op.toNat ≠ 0x0000 ∧ op.toNat ≠ 0x00E0 ∧ op.toNat ≠ 0x00EE) ∨
    (op.toNat / 4096 = 0x5 ∧ op.toNat % 16 ≠ 0) ∨
    (op.toNat / 4096 = 0x8 ∧ op.toNat % 16 ∈ [0x8, 0x9, 0xA, 0xB, 0xC, 0xD, 0xF]) ∨
    (op.toNat / 4096 = 0x9 ∧ op.toNat % 16 ≠ 0) ∨
    (op.toNat / 4096 = 0xE ∧ op.toNat % 256 ∉ [0x9E, 0xA1]) ∨
    (op.toNat / 4096 = 0xF ∧ op.toNat % 256 ∉ [0x07, 0x0A, 0x15, 0x18, 0x1E, 0x29, 0x33, 0x55, 0x65])

/-! ### Group 0, jumps, calls and skips -/

/-- 40_flow.md R80: HALT changes nothing, PC included; a Step on the zero word changes nothing of the block. -/
def Obligations.HaltChangesNothing : Prop :=
  decodeWord 0x0000 = .ok .halt ∧ (∀ s : State, exec .halt s = .next s) ∧
  ∀ s : State, s.status = .running → s.schedule = [] → s.memRead s.pc.toNat = 0 → s.memRead (s.pc.toNat + 1) = 0 →
    ∃ t, step s = .next t ∧ OnlyChanges s t [] [.keys, .rnd, .samples] ∧ s.unknownOpcodeOut = false

/-- 40_flow.md R81: CLS clears every cell and sets REDRAW (the spec's decision D13). -/
def Obligations.ClsClearsScreen : Prop :=
  decodeWord 0x00E0 = .ok .cls ∧
  ∀ s : State, ∃ t, exec .cls s = .next t ∧ (∀ j, t.pixel j = false) ∧ t.redraw = true ∧ t.pc = s.pc + 2 ∧
    OnlyChanges s t [] [.pc, .fb, .redraw]

/-- 40_flow.md R83: RET takes PC from S[SP], then decrements SP; the entry keeps its contents (the spec's decision D5).
SP is 1..15, its legal range but 0 (R14). -/
def Obligations.RetPopsReturnAddress : Prop :=
  decodeWord 0x00EE = .ok .ret ∧
  ∀ s : State, 1 ≤ s.sp.toNat → s.sp.toNat ≤ 15 →
    ∃ t, exec .ret s = .next t ∧ s.stackAt s.sp.toNat = some t.pc ∧ t.sp.toNat = s.sp.toNat - 1 ∧
      OnlyChanges s t [] [.pc, .sp]

/-- 40_flow.md R83, 60_exceptions.md R162, R163: RET on an empty stack raises StackUnderflow: STATUS FAULTED, CAUSE 2,
nothing else, PC included (the spec's decision D6). -/
def Obligations.RetUnderflowFaults : Prop :=
  ∀ s : State, s.sp = 0 →
    ∃ t, exec .ret s = .next t ∧ t.status = .faulted ∧ t.cause.code = 2 ∧ OnlyChanges s t [] [.status, .cause]

/-- The model's choice (assumption log 5): in a state with SP above 15, which 10_state.md R14 and R38 rule out, RET
stops. -/
def Obligations.RetAboveStackStops : Prop :=
  ∀ s : State, s.sp.toNat > 15 → exec .ret s = .fault .stackIndexOutOfRange

/-- 40_flow.md R84: JP assigns nnn to PC and does nothing else. -/
def Obligations.JpSetsPc : Prop :=
  ∀ nnn : Addr, decodeWord (0x1#4 ++ nnn) = .ok (.jp nnn) ∧
    ∀ s : State, ∃ t, exec (.jp nnn) s = .next t ∧ t.pc.toNat = nnn.toNat ∧ OnlyChanges s t [] [.pc]

/-- 40_flow.md R85: CALL increments SP, writes the advanced PC to S[SP], and goes to nnn, when SP is below 15 (the
spec's decision D5). -/
def Obligations.CallPushesReturnAddress : Prop :=
  ∀ nnn : Addr, decodeWord (0x2#4 ++ nnn) = .ok (.call nnn) ∧
    ∀ s : State, s.sp.toNat < 15 →
      ∃ t, exec (.call nnn) s = .next t ∧ t.sp.toNat = s.sp.toNat + 1 ∧
        t.stackAt (s.sp.toNat + 1) = some (s.pc + 2) ∧ (∀ k, k ≠ s.sp.toNat + 1 → t.stackAt k = s.stackAt k) ∧
        t.pc.toNat = nnn.toNat ∧ OnlyChanges s t [] [.pc, .sp, .stack]

/-- 40_flow.md R85, 60_exceptions.md R161, R163: CALL with SP >= 15 raises StackOverflow: STATUS FAULTED, CAUSE 1,
nothing else (the spec's decisions D5, D6). -/
def Obligations.CallOverflowFaults : Prop :=
  ∀ (nnn : Addr) (s : State), s.sp.toNat ≥ 15 →
    ∃ t, exec (.call nnn) s = .next t ∧ t.status = .faulted ∧ t.cause.code = 1 ∧
      OnlyChanges s t [] [.status, .cause]

/-- 40_flow.md R90: JP V0 goes to nnn + V0 (the spec's decision D24: always V0). -/
def Obligations.JpV0AddsOffset : Prop :=
  ∀ nnn : Addr, decodeWord (0xB#4 ++ nnn) = .ok (.jpV0 nnn) ∧
    ∀ s : State, ∃ t, exec (.jpV0 nnn) s = .next t ∧ t.pc.toNat = nnn.toNat + (s.getV 0).toNat ∧
      OnlyChanges s t [] [.pc]

/-- 40_flow.md R86, R87: SE and SNE with an immediate. -/
def Obligations.ImmediateSkips : Prop :=
  ∀ (x : RegNum) (kk : Byte),
    decodeWord (0x3#4 ++ nibble x ++ kk) = .ok (.seImm x kk) ∧
    decodeWord (0x4#4 ++ nibble x ++ kk) = .ok (.sneImm x kk) ∧
    ∀ s : State,
      (∃ t, exec (.seImm x kk) s = .next t ∧ t.pc = (if s.getV x = kk then s.pc + 4 else s.pc + 2) ∧
        OnlyChanges s t [] [.pc]) ∧
      (∃ t, exec (.sneImm x kk) s = .next t ∧ t.pc = (if s.getV x = kk then s.pc + 2 else s.pc + 4) ∧
        OnlyChanges s t [] [.pc])

/-- 40_flow.md R88, R89: SE and SNE of two registers. -/
def Obligations.RegisterSkips : Prop :=
  ∀ x y : RegNum,
    decodeWord (0x5#4 ++ nibble x ++ nibble y ++ 0x0#4) = .ok (.seReg x y) ∧
    decodeWord (0x9#4 ++ nibble x ++ nibble y ++ 0x0#4) = .ok (.sneReg x y) ∧
    ∀ s : State,
      (∃ t, exec (.seReg x y) s = .next t ∧ t.pc = (if s.getV x = s.getV y then s.pc + 4 else s.pc + 2) ∧
        OnlyChanges s t [] [.pc]) ∧
      (∃ t, exec (.sneReg x y) s = .next t ∧ t.pc = (if s.getV x = s.getV y then s.pc + 2 else s.pc + 4) ∧
        OnlyChanges s t [] [.pc])

/-! ### Loads, arithmetic, logic, shifts -/

/-- 41_load_alu.md R101: LD Vx, kk; VF unchanged unless x is F. -/
def Obligations.LdImmediate : Prop :=
  ∀ (x : RegNum) (kk : Byte), decodeWord (0x6#4 ++ nibble x ++ kk) = .ok (.ldImm x kk) ∧
    ∀ s : State, ∃ t, exec (.ldImm x kk) s = .next t ∧ t.getV x = kk ∧ t.pc = s.pc + 2 ∧ OnlyChanges s t [x] [.pc]

/-- 41_load_alu.md R102: ADD Vx, kk modulo 256, no carry recorded (the spec's decision D10). -/
def Obligations.AddImmediate : Prop :=
  ∀ (x : RegNum) (kk : Byte), decodeWord (0x7#4 ++ nibble x ++ kk) = .ok (.addImm x kk) ∧
    ∀ s : State, ∃ t, exec (.addImm x kk) s = .next t ∧
      (t.getV x).toNat = ((s.getV x).toNat + kk.toNat) % 256 ∧ t.pc = s.pc + 2 ∧ OnlyChanges s t [x] [.pc]

/-- 41_load_alu.md R103: LD Vx, Vy. -/
def Obligations.LdRegister : Prop :=
  ∀ x y : RegNum, decodeWord (0x8#4 ++ nibble x ++ nibble y ++ 0x0#4) = .ok (.ldReg x y) ∧
    ∀ s : State, ∃ t, exec (.ldReg x y) s = .next t ∧ t.getV x = s.getV y ∧ t.pc = s.pc + 2 ∧
      OnlyChanges s t [x] [.pc]

/-- 41_load_alu.md R104 to R106: OR, AND, XOR bit by bit; VF is not written as a flag (the spec's decision D10). -/
def Obligations.BitwiseLogic : Prop :=
  ∀ x y : RegNum,
    decodeWord (0x8#4 ++ nibble x ++ nibble y ++ 0x1#4) = .ok (.orReg x y) ∧
    decodeWord (0x8#4 ++ nibble x ++ nibble y ++ 0x2#4) = .ok (.andReg x y) ∧
    decodeWord (0x8#4 ++ nibble x ++ nibble y ++ 0x3#4) = .ok (.xorReg x y) ∧
    ∀ s : State,
      (∃ t, exec (.orReg x y) s = .next t ∧ t.pc = s.pc + 2 ∧ OnlyChanges s t [x] [.pc] ∧
        ∀ k < 8, (t.getV x).getLsbD k = ((s.getV x).getLsbD k || (s.getV y).getLsbD k)) ∧
      (∃ t, exec (.andReg x y) s = .next t ∧ t.pc = s.pc + 2 ∧ OnlyChanges s t [x] [.pc] ∧
        ∀ k < 8, (t.getV x).getLsbD k = ((s.getV x).getLsbD k && (s.getV y).getLsbD k)) ∧
      (∃ t, exec (.xorReg x y) s = .next t ∧ t.pc = s.pc + 2 ∧ OnlyChanges s t [x] [.pc] ∧
        ∀ k < 8, (t.getV x).getLsbD k = ((s.getV x).getLsbD k ^^ (s.getV y).getLsbD k))

/-- 41_load_alu.md R107: ADD Vx, Vy; VF is the carry; with x = F the result wins (R100, the spec's decision D8). -/
def Obligations.AddRegisterWithCarry : Prop :=
  ∀ x y : RegNum, decodeWord (0x8#4 ++ nibble x ++ nibble y ++ 0x4#4) = .ok (.addReg x y) ∧
    ∀ s : State, ∃ t, exec (.addReg x y) s = .next t ∧
      (t.getV x).toNat = ((s.getV x).toNat + (s.getV y).toNat) % 256 ∧
      (x ≠ 15 → t.getV 15 = if (s.getV x).toNat + (s.getV y).toNat > 255 then 1 else 0) ∧
      t.pc = s.pc + 2 ∧ OnlyChanges s t [x, 15] [.pc]

/-- 41_load_alu.md R108, R110: SUB is Vx - Vy, SUBN is Vy - Vx, both modulo 256; VF is 1 when there is no borrow, equal
operands included (the spec's decision D9); with x = F the result wins (R100, D8). -/
def Obligations.SubtractWithNoBorrow : Prop :=
  ∀ x y : RegNum,
    decodeWord (0x8#4 ++ nibble x ++ nibble y ++ 0x5#4) = .ok (.subReg x y) ∧
    decodeWord (0x8#4 ++ nibble x ++ nibble y ++ 0x7#4) = .ok (.subnReg x y) ∧
    ∀ s : State,
      (∃ t, exec (.subReg x y) s = .next t ∧
        (t.getV x).toNat = (256 + (s.getV x).toNat - (s.getV y).toNat) % 256 ∧
        (x ≠ 15 → t.getV 15 = if (s.getV x).toNat ≥ (s.getV y).toNat then 1 else 0) ∧
        t.pc = s.pc + 2 ∧ OnlyChanges s t [x, 15] [.pc]) ∧
      (∃ t, exec (.subnReg x y) s = .next t ∧
        (t.getV x).toNat = (256 + (s.getV y).toNat - (s.getV x).toNat) % 256 ∧
        (x ≠ 15 → t.getV 15 = if (s.getV y).toNat ≥ (s.getV x).toNat then 1 else 0) ∧
        t.pc = s.pc + 2 ∧ OnlyChanges s t [x, 15] [.pc])

/-- 41_load_alu.md R109, R111: SHR and SHL shift Vx by one, VF is the bit shifted out, every y is the same instruction
(30_encoding.md R69, the spec's decision D11); with x = F the result wins (R100, D8). -/
def Obligations.ShiftsByOne : Prop :=
  ∀ x y : RegNum,
    decodeWord (0x8#4 ++ nibble x ++ nibble y ++ 0x6#4) = .ok (.shr x y) ∧
    decodeWord (0x8#4 ++ nibble x ++ nibble y ++ 0xE#4) = .ok (.shl x y) ∧
    ∀ s : State,
      (∃ t, exec (.shr x y) s = .next t ∧ (t.getV x).toNat = (s.getV x).toNat / 2 ∧
        (x ≠ 15 → (t.getV 15).toNat = (s.getV x).toNat % 2) ∧ t.pc = s.pc + 2 ∧ OnlyChanges s t [x, 15] [.pc]) ∧
      (∃ t, exec (.shl x y) s = .next t ∧ (t.getV x).toNat = (s.getV x).toNat * 2 % 256 ∧
        (x ≠ 15 → (t.getV 15).toNat = (s.getV x).toNat / 128) ∧ t.pc = s.pc + 2 ∧ OnlyChanges s t [x, 15] [.pc])

/-- 41_load_alu.md R112: LD I, nnn. -/
def Obligations.LdIndex : Prop :=
  ∀ nnn : Addr, decodeWord (0xA#4 ++ nnn) = .ok (.ldI nnn) ∧
    ∀ s : State, ∃ t, exec (.ldI nnn) s = .next t ∧ t.i.toNat = nnn.toNat ∧ t.pc = s.pc + 2 ∧
      OnlyChanges s t [] [.pc, .i]

/-! ### Random number and sprite draw -/

/-- 42_rnd_drw.md R120: RND is the level on `rnd`, masked, whatever that level is (the spec's decision D18). -/
def Obligations.RndMasksInput : Prop :=
  ∀ (x : RegNum) (kk : Byte), decodeWord (0xC#4 ++ nibble x ++ kk) = .ok (.rnd x kk) ∧
    ∀ s : State, ∃ t, exec (.rnd x kk) s = .next t ∧
      (∀ k < 8, (t.getV x).getLsbD k = (s.rnd.getLsbD k && kk.getLsbD k)) ∧ t.pc = s.pc + 2 ∧
      OnlyChanges s t [x] [.pc]

/-- 42_rnd_drw.md R121: DRW inverts the cells under the sprite's set pixels, wrapped on each axis, and no other; VF says
whether one of them was 1; REDRAW is set. Bit 7 as the leftmost pixel is the spec's decision D12. -/
def Obligations.DrwDrawsSprite : Prop :=
  ∀ (x y : RegNum) (n : Fin 16),
    decodeWord (0xD#4 ++ nibble x ++ nibble y ++ nibble n) = .ok (.drw x y n) ∧
    ∀ s : State, ∃ t, exec (.drw x y n) s = .next t ∧
      (∀ j, SpriteCovers s x y n j → t.pixel j = !s.pixel j) ∧
      (∀ j, ¬SpriteCovers s x y n j → t.pixel j = s.pixel j) ∧
      ((∃ j, SpriteCovers s x y n j ∧ s.pixel j = true) → t.getV 15 = 1) ∧
      ((∀ j, SpriteCovers s x y n j → s.pixel j = false) → t.getV 15 = 0) ∧
      t.redraw = true ∧ t.pc = s.pc + 2 ∧ OnlyChanges s t [15] [.pc, .fb, .redraw]

/-! ### Keypad -/

/-- 43_keypad.md R131, R132: SKP skips when the key whose code is in Vx is pressed, SKNP when it is not; a value above
15 counts as not pressed (the spec's decision D16). -/
def Obligations.KeySkips : Prop :=
  ∀ x : RegNum,
    decodeWord (0xE#4 ++ nibble x ++ 0x9E#8) = .ok (.skp x) ∧
    decodeWord (0xE#4 ++ nibble x ++ 0xA1#8) = .ok (.sknp x) ∧
    ∀ s : State,
      (∃ t, exec (.skp x) s = .next t ∧ OnlyChanges s t [] [.pc] ∧
        t.pc = if (s.getV x).toNat ≤ 15 ∧ s.keys.getLsbD (s.getV x).toNat = true then s.pc + 4 else s.pc + 2) ∧
      (∃ t, exec (.sknp x) s = .next t ∧ OnlyChanges s t [] [.pc] ∧
        t.pc = if (s.getV x).toNat ≤ 15 ∧ s.keys.getLsbD (s.getV x).toNat = true then s.pc + 2 else s.pc + 4)

/-- 43_keypad.md R133: LD Vx, K remembers x and waits; Vx is not written in this Step. -/
def Obligations.LdKeyEntersWait : Prop :=
  ∀ x : RegNum, decodeWord (0xF#4 ++ nibble x ++ 0x0A#8) = .ok (.ldVxK x) ∧
    ∀ s : State, ∃ t, exec (.ldVxK x) s = .next t ∧ t.wx = x ∧ t.status = .waiting ∧ t.pc = s.pc + 2 ∧
      OnlyChanges s t [] [.pc, .status, .wx]

/-! ### The Fx family -/

/-- 44_fx.md R141: LD Vx, DT. -/
def Obligations.LdFromDelayTimer : Prop :=
  ∀ x : RegNum, decodeWord (0xF#4 ++ nibble x ++ 0x07#8) = .ok (.ldVxDt x) ∧
    ∀ s : State, ∃ t, exec (.ldVxDt x) s = .next t ∧ t.getV x = s.dt ∧ t.pc = s.pc + 2 ∧ OnlyChanges s t [x] [.pc]

/-- 44_fx.md R142: LD DT, Vx. -/
def Obligations.LdToDelayTimer : Prop :=
  ∀ x : RegNum, decodeWord (0xF#4 ++ nibble x ++ 0x15#8) = .ok (.ldDtVx x) ∧
    ∀ s : State, ∃ t, exec (.ldDtVx x) s = .next t ∧ t.dt = s.getV x ∧ t.pc = s.pc + 2 ∧
      OnlyChanges s t [] [.pc, .dt]

/-- 44_fx.md R143: LD ST, Vx; the tone follows at once (the spec's decision D19). -/
def Obligations.LdToSoundTimer : Prop :=
  ∀ x : RegNum, decodeWord (0xF#4 ++ nibble x ++ 0x18#8) = .ok (.ldStVx x) ∧
    ∀ s : State, ∃ t, exec (.ldStVx x) s = .next t ∧ t.st = s.getV x ∧ (t.tone = true ↔ (s.getV x).toNat > 0) ∧
      t.pc = s.pc + 2 ∧ OnlyChanges s t [] [.pc, .st]

/-- 44_fx.md R144: ADD I, Vx modulo 65536 (the spec's decision D4), VF not written (D10). -/
def Obligations.AddToIndex : Prop :=
  ∀ x : RegNum, decodeWord (0xF#4 ++ nibble x ++ 0x1E#8) = .ok (.addI x) ∧
    ∀ s : State, ∃ t, exec (.addI x) s = .next t ∧ t.i.toNat = (s.i.toNat + (s.getV x).toNat) % 65536 ∧
      t.pc = s.pc + 2 ∧ OnlyChanges s t [] [.pc, .i]

/-- 44_fx.md R145: LD F, Vx points I at the glyph of the low nibble, 5 * d (the spec's decisions D14, D15). -/
def Obligations.LdFontAddress : Prop :=
  ∀ x : RegNum, decodeWord (0xF#4 ++ nibble x ++ 0x29#8) = .ok (.ldF x) ∧
    ∀ s : State, ∃ t, exec (.ldF x) s = .next t ∧ t.i.toNat = 5 * ((s.getV x).toNat % 16) ∧
      t.pc = s.pc + 2 ∧ OnlyChanges s t [] [.pc, .i]

/-- 44_fx.md R146: LD B, Vx stores the three digits at I, I + 1, I + 2, and no other byte; I is unchanged (the spec's
decision D17); addresses wrap modulo 4096 (20_memory.md R41, the spec's decision D3). The memory is in the model's
canonical form (assumption log 13). -/
def Obligations.LdBcdStoresDigits : Prop :=
  ∀ x : RegNum, decodeWord (0xF#4 ++ nibble x ++ 0x33#8) = .ok (.ldB x) ∧
    ∀ s : State, s.mem.wf = true → ∃ t, exec (.ldB x) s = .next t ∧
      (t.memRead s.i.toNat).toNat = (s.getV x).toNat / 100 ∧
      (t.memRead (s.i.toNat + 1)).toNat = (s.getV x).toNat / 10 % 10 ∧
      (t.memRead (s.i.toNat + 2)).toNat = (s.getV x).toNat % 10 ∧
      (∀ a, (∀ k < 3, a % 4096 ≠ (s.i.toNat + k) % 4096) → t.memRead a = s.memRead a) ∧
      t.pc = s.pc + 2 ∧ OnlyChanges s t [] [.pc, .mem]

/-- 44_fx.md R147: LD [I], Vx stores V0..Vx at I, I + 1, ..., and no other byte; I is unchanged (the spec's decision
D17); addresses wrap modulo 4096 (20_memory.md R41, D3). The memory is in the model's canonical form (log 13). -/
def Obligations.StoreRegistersAtIndex : Prop :=
  ∀ x : RegNum, decodeWord (0xF#4 ++ nibble x ++ 0x55#8) = .ok (.storeRegs x) ∧
    ∀ s : State, s.mem.wf = true → ∃ t, exec (.storeRegs x) s = .next t ∧
      (∀ r : RegNum, r ≤ x → t.memRead (s.i.toNat + r.val) = s.getV r) ∧
      (∀ a, (∀ k ≤ x.val, a % 4096 ≠ (s.i.toNat + k) % 4096) → t.memRead a = s.memRead a) ∧
      t.pc = s.pc + 2 ∧ OnlyChanges s t [] [.pc, .mem]

/-- 44_fx.md R148: LD Vx, [I] loads V0..Vx from I, I + 1, ..., registers above Vx are unchanged, and so are memory and I
(the spec's decision D17). -/
def Obligations.LoadRegistersFromIndex : Prop :=
  ∀ x : RegNum, decodeWord (0xF#4 ++ nibble x ++ 0x65#8) = .ok (.loadRegs x) ∧
    ∀ s : State, ∃ t, exec (.loadRegs x) s = .next t ∧
      (∀ r : RegNum, r ≤ x → t.getV r = s.memRead ((s.i.toNat + r.val) % 4096)) ∧
      (∀ r : RegNum, x < r → t.getV r = s.getV r) ∧ t.pc = s.pc + 2 ∧
      OnlyChanges s t ((List.finRange 16).filter (· ≤ x)) [.pc]

/-! ### Rules of the whole machine -/

/-- 10_state.md R38: the invariant holds after Reset. -/
def Obligations.InvariantAfterReset : Prop := State.reset.Inv

/-- 10_state.md R38: every event, a Step on any word among them, keeps the invariant: SP legal, CAUSE and FAULTED
together, S[0] = 0, and the memory's canonical form (the model's, assumption log 13). -/
def Obligations.EveryEventKeepsInvariant : Prop :=
  ∀ s t : State, s.Inv → step s = .next t → t.Inv

/-- 60_exceptions.md R160, R165: from a legal state no event stops the model: every instruction, and every word that is
none, answers a next state. -/
def Obligations.LegalStatesNeverStop : Prop :=
  ∀ s : State, s.Inv → (∃ t, step s = .next t) ∧ ∀ i : Instr, ∃ t, exec i s = .next t

/-- 60_exceptions.md R164: FAULTED is left only by Reset (the spec's decisions D6, D20): whatever other events come, and
however many Steps, STATUS, CAUSE, PC, the V registers, I, SP, the stack and the framebuffer stay as they are. -/
def Obligations.FaultedUntilReset : Prop :=
  ∀ (n : Nat) (s : State), s.status = .faulted → (∀ e ∈ s.schedule, e ≠ .reset) →
    ∃ t, Host.Core.run Sys2Proof.core n s = .next t ∧ OnlyChanges s t [] [.mem, .dt, .st, .redraw, .schedule]

/-- 43_keypad.md R133, R135: WAITING is left only by a KeyEvent or a Reset; otherwise PC, the V registers and WX stay. -/
def Obligations.WaitEndsByKeyOrReset : Prop :=
  ∀ s t : State, s.status = .waiting → step s = .next t →
    (∃ k rest, s.schedule = .keyEvent k :: rest) ∨ (∃ rest, s.schedule = .reset :: rest) ∨
    OnlyChanges s t [] [.mem, .dt, .st, .redraw, .schedule]

/-- 60_exceptions.md R160, R165: only CALL with SP >= 15 and RET with SP = 0 fault, with their own cause. -/
def Obligations.OnlyCallAndRetFault : Prop :=
  ∀ (i : Instr) (s t : State), s.status = .running → exec i s = .next t → t.status = .faulted →
    ((∃ nnn, i = .call nnn) ∧ s.sp.toNat ≥ 15 ∧ t.cause = .stackOverflow) ∨
    (i = .ret ∧ s.sp = 0 ∧ t.cause = .stackUnderflow)

/-- 10_state.md R26: an instruction writes only the state R26's table lists for it. -/
def Obligations.InstructionsWriteOnlyListedState : Prop :=
  ∀ (i : Instr) (s t : State), exec i s = .next t → OnlyChanges s t (instrWritesV i) (instrWritesParts i)

/-- 30_encoding.md R61: an instruction that does not assign PC ends at pc0 + 2, or, if it is a skip, at pc0 + 2 or
pc0 + 4. -/
def Obligations.PcAdvancesByTwo : Prop :=
  ∀ (i : Instr) (s t : State), setsPc i = false → exec i s = .next t →
    t.pc = s.pc + 2 ∨ (isSkip i = true ∧ t.pc = s.pc + 4)

/-- 10_state.md R17, R20: no instruction reads REDRAW or ST: two runs that differ only there differ only there ever
after, whatever the events. -/
def Obligations.RedrawAndSoundNeverInfluence : Prop :=
  ∀ (n : Nat) (s t : State) (redraw : Bool) (st : Byte), Host.Core.run Sys2Proof.core n s = .next t →
    ∃ redraw' st', Host.Core.run Sys2Proof.core n { s with redraw := redraw, st := st } =
      .next { t with redraw := redraw', st := st' }

/-- 42_rnd_drw.md R123: drawing the same sprite twice at the same coordinates gives the framebuffer back, and the second
draw collides exactly when the first turned a cell on. -/
def Obligations.DrawTwiceRestoresScreen : Prop :=
  ∀ (s t : State) (x y : RegNum) (n : Fin 16), exec (.drw x y n) s = .next t →
    t.getV x = s.getV x → t.getV y = s.getV y →
    ∃ u, exec (.drw x y n) t = .next u ∧ (∀ j, u.pixel j = s.pixel j) ∧
      (u.getV 15 = 1 ↔ ∃ j, SpriteCovers s x y n j ∧ s.pixel j = false)

/-- 44_fx.md R147, R148 (I unchanged: the spec's decision D17): Fx55, then Fx65 from the same I, gives back V0..Vx,
whatever was put in the registers between. -/
def Obligations.StoreThenLoadRestores : Prop :=
  ∀ (s t : State) (x : RegNum) (v' : Vector Byte 16), s.mem.wf = true → exec (.storeRegs x) s = .next t →
    ∃ u, exec (.loadRegs x) { t with v := v' } = .next u ∧ ∀ r : RegNum, r ≤ x → u.getV r = s.getV r

/-- 20_memory.md R52: a store is seen by the very next fetch: Fx55 with I at the next instruction's address makes V0, V1
the next opcode, and the Step after it runs that. -/
def Obligations.StoreSeenByNextFetch : Prop :=
  ∀ (s t : State) (x : RegNum) (i : Instr), s.mem.wf = true → s.status = .running → s.schedule = [] → 1 ≤ x.val →
    s.i = s.pc + 2 → exec (.storeRegs x) s = .next t → decodeWord (s.getV 0 ++ s.getV 1) = .ok i →
    step t = exec i { t with
      keys := Config.freeKeys t.samples, rnd := Config.freeRnd t.samples, samples := t.samples + 1 }

/-- 10_state.md R36: the status outputs. `waiting` and `faulted` follow STATUS, `cause` is 0 or one of the two fault
codes and readable beside them (the spec's decision D6); `unknown_opcode` is 1 exactly during a Step, in RUNNING, on a
word that is no instruction (30_encoding.md R68, the spec's decision D7), and `load_error` exactly for a Load of more
than 3584 bytes (70_reset_and_hazards.md R191, the spec's decision D21). With the schedule used up the next event is a
Step (the model's choice, assumption log 2). -/
def Obligations.StatusOutputs : Prop :=
  ∀ s : State,
    (s.waitingOut = true ↔ s.status.code = 1) ∧ (s.faultedOut = true ↔ s.status.code = 2) ∧
    s.cause.code.toNat ≤ 2 ∧
    (s.unknownOpcodeOut = true ↔ s.status = .running ∧
      (s.schedule = [] ∨ ∃ keys rnd rest, s.schedule = .step keys rnd :: rest) ∧
      ∀ i, decodeWord (s.memRead s.pc.toNat ++ s.memRead (s.pc.toNat + 1)) ≠ .ok i) ∧
    (s.loadErrorOut = true ↔ ∃ bytes rest, s.schedule = .load bytes :: rest ∧ bytes.length > 3584)
end

