-- ==== Sys2Proof/Laws/State.lean ====
section
/-! SUPPORT. One lemma per field per update of the state, and per accessor per update that does not touch it, so that
no proof unfolds a record update. -/

namespace Sys2Proof.Machine

/-! ### `setV` -/

@[simp] theorem State.setV_v (s : State) (x : RegNum) (b : Byte) : (s.setV x b).v = s.v.set x.val b := rfl
@[simp] theorem State.setV_i (s : State) (x : RegNum) (b : Byte) : (s.setV x b).i = s.i := rfl
@[simp] theorem State.setV_pc (s : State) (x : RegNum) (b : Byte) : (s.setV x b).pc = s.pc := rfl
@[simp] theorem State.setV_sp (s : State) (x : RegNum) (b : Byte) : (s.setV x b).sp = s.sp := rfl
@[simp] theorem State.setV_stack (s : State) (x : RegNum) (b : Byte) : (s.setV x b).stack = s.stack := rfl
@[simp] theorem State.setV_dt (s : State) (x : RegNum) (b : Byte) : (s.setV x b).dt = s.dt := rfl
@[simp] theorem State.setV_st (s : State) (x : RegNum) (b : Byte) : (s.setV x b).st = s.st := rfl
@[simp] theorem State.setV_mem (s : State) (x : RegNum) (b : Byte) : (s.setV x b).mem = s.mem := rfl
@[simp] theorem State.setV_fb (s : State) (x : RegNum) (b : Byte) : (s.setV x b).fb = s.fb := rfl
@[simp] theorem State.setV_redraw (s : State) (x : RegNum) (b : Byte) : (s.setV x b).redraw = s.redraw := rfl
@[simp] theorem State.setV_status (s : State) (x : RegNum) (b : Byte) : (s.setV x b).status = s.status := rfl
@[simp] theorem State.setV_wx (s : State) (x : RegNum) (b : Byte) : (s.setV x b).wx = s.wx := rfl
@[simp] theorem State.setV_cause (s : State) (x : RegNum) (b : Byte) : (s.setV x b).cause = s.cause := rfl
@[simp] theorem State.setV_keys (s : State) (x : RegNum) (b : Byte) : (s.setV x b).keys = s.keys := rfl
@[simp] theorem State.setV_rnd (s : State) (x : RegNum) (b : Byte) : (s.setV x b).rnd = s.rnd := rfl
@[simp] theorem State.setV_samples (s : State) (x : RegNum) (b : Byte) : (s.setV x b).samples = s.samples := rfl
@[simp] theorem State.setV_schedule (s : State) (x : RegNum) (b : Byte) : (s.setV x b).schedule = s.schedule := rfl
@[simp] theorem State.memRead_setV (s : State) (x : RegNum) (b : Byte) (a' : Nat) : (s.setV x b).memRead a' = s.memRead a' := rfl
@[simp] theorem State.stackAt_setV (s : State) (x : RegNum) (b : Byte) (k' : Nat) : (s.setV x b).stackAt k' = s.stackAt k' := rfl
@[simp] theorem State.pixel_setV (s : State) (x : RegNum) (b : Byte) (j : Fin Config.fbCells) : (s.setV x b).pixel j = s.pixel j := rfl

/-! ### `setI` -/

@[simp] theorem State.setI_v (s : State) (w : Word) : (s.setI w).v = s.v := rfl
@[simp] theorem State.setI_i (s : State) (w : Word) : (s.setI w).i = w := rfl
@[simp] theorem State.setI_pc (s : State) (w : Word) : (s.setI w).pc = s.pc := rfl
@[simp] theorem State.setI_sp (s : State) (w : Word) : (s.setI w).sp = s.sp := rfl
@[simp] theorem State.setI_stack (s : State) (w : Word) : (s.setI w).stack = s.stack := rfl
@[simp] theorem State.setI_dt (s : State) (w : Word) : (s.setI w).dt = s.dt := rfl
@[simp] theorem State.setI_st (s : State) (w : Word) : (s.setI w).st = s.st := rfl
@[simp] theorem State.setI_mem (s : State) (w : Word) : (s.setI w).mem = s.mem := rfl
@[simp] theorem State.setI_fb (s : State) (w : Word) : (s.setI w).fb = s.fb := rfl
@[simp] theorem State.setI_redraw (s : State) (w : Word) : (s.setI w).redraw = s.redraw := rfl
@[simp] theorem State.setI_status (s : State) (w : Word) : (s.setI w).status = s.status := rfl
@[simp] theorem State.setI_wx (s : State) (w : Word) : (s.setI w).wx = s.wx := rfl
@[simp] theorem State.setI_cause (s : State) (w : Word) : (s.setI w).cause = s.cause := rfl
@[simp] theorem State.setI_keys (s : State) (w : Word) : (s.setI w).keys = s.keys := rfl
@[simp] theorem State.setI_rnd (s : State) (w : Word) : (s.setI w).rnd = s.rnd := rfl
@[simp] theorem State.setI_samples (s : State) (w : Word) : (s.setI w).samples = s.samples := rfl
@[simp] theorem State.setI_schedule (s : State) (w : Word) : (s.setI w).schedule = s.schedule := rfl
@[simp] theorem State.getV_setI (s : State) (w : Word) (r : RegNum) : (s.setI w).getV r = s.getV r := rfl
@[simp] theorem State.memRead_setI (s : State) (w : Word) (a' : Nat) : (s.setI w).memRead a' = s.memRead a' := rfl
@[simp] theorem State.stackAt_setI (s : State) (w : Word) (k' : Nat) : (s.setI w).stackAt k' = s.stackAt k' := rfl
@[simp] theorem State.pixel_setI (s : State) (w : Word) (j : Fin Config.fbCells) : (s.setI w).pixel j = s.pixel j := rfl

/-! ### `setPc` -/

@[simp] theorem State.setPc_v (s : State) (w : Word) : (s.setPc w).v = s.v := rfl
@[simp] theorem State.setPc_i (s : State) (w : Word) : (s.setPc w).i = s.i := rfl
@[simp] theorem State.setPc_pc (s : State) (w : Word) : (s.setPc w).pc = w := rfl
@[simp] theorem State.setPc_sp (s : State) (w : Word) : (s.setPc w).sp = s.sp := rfl
@[simp] theorem State.setPc_stack (s : State) (w : Word) : (s.setPc w).stack = s.stack := rfl
@[simp] theorem State.setPc_dt (s : State) (w : Word) : (s.setPc w).dt = s.dt := rfl
@[simp] theorem State.setPc_st (s : State) (w : Word) : (s.setPc w).st = s.st := rfl
@[simp] theorem State.setPc_mem (s : State) (w : Word) : (s.setPc w).mem = s.mem := rfl
@[simp] theorem State.setPc_fb (s : State) (w : Word) : (s.setPc w).fb = s.fb := rfl
@[simp] theorem State.setPc_redraw (s : State) (w : Word) : (s.setPc w).redraw = s.redraw := rfl
@[simp] theorem State.setPc_status (s : State) (w : Word) : (s.setPc w).status = s.status := rfl
@[simp] theorem State.setPc_wx (s : State) (w : Word) : (s.setPc w).wx = s.wx := rfl
@[simp] theorem State.setPc_cause (s : State) (w : Word) : (s.setPc w).cause = s.cause := rfl
@[simp] theorem State.setPc_keys (s : State) (w : Word) : (s.setPc w).keys = s.keys := rfl
@[simp] theorem State.setPc_rnd (s : State) (w : Word) : (s.setPc w).rnd = s.rnd := rfl
@[simp] theorem State.setPc_samples (s : State) (w : Word) : (s.setPc w).samples = s.samples := rfl
@[simp] theorem State.setPc_schedule (s : State) (w : Word) : (s.setPc w).schedule = s.schedule := rfl
@[simp] theorem State.getV_setPc (s : State) (w : Word) (r : RegNum) : (s.setPc w).getV r = s.getV r := rfl
@[simp] theorem State.memRead_setPc (s : State) (w : Word) (a' : Nat) : (s.setPc w).memRead a' = s.memRead a' := rfl
@[simp] theorem State.stackAt_setPc (s : State) (w : Word) (k' : Nat) : (s.setPc w).stackAt k' = s.stackAt k' := rfl
@[simp] theorem State.pixel_setPc (s : State) (w : Word) (j : Fin Config.fbCells) : (s.setPc w).pixel j = s.pixel j := rfl

/-! ### `advancePc` -/

@[simp] theorem State.advancePc_v (s : State) : (s.advancePc).v = s.v := rfl
@[simp] theorem State.advancePc_i (s : State) : (s.advancePc).i = s.i := rfl
@[simp] theorem State.advancePc_pc (s : State) : (s.advancePc).pc = s.pc + 2 := rfl
@[simp] theorem State.advancePc_sp (s : State) : (s.advancePc).sp = s.sp := rfl
@[simp] theorem State.advancePc_stack (s : State) : (s.advancePc).stack = s.stack := rfl
@[simp] theorem State.advancePc_dt (s : State) : (s.advancePc).dt = s.dt := rfl
@[simp] theorem State.advancePc_st (s : State) : (s.advancePc).st = s.st := rfl
@[simp] theorem State.advancePc_mem (s : State) : (s.advancePc).mem = s.mem := rfl
@[simp] theorem State.advancePc_fb (s : State) : (s.advancePc).fb = s.fb := rfl
@[simp] theorem State.advancePc_redraw (s : State) : (s.advancePc).redraw = s.redraw := rfl
@[simp] theorem State.advancePc_status (s : State) : (s.advancePc).status = s.status := rfl
@[simp] theorem State.advancePc_wx (s : State) : (s.advancePc).wx = s.wx := rfl
@[simp] theorem State.advancePc_cause (s : State) : (s.advancePc).cause = s.cause := rfl
@[simp] theorem State.advancePc_keys (s : State) : (s.advancePc).keys = s.keys := rfl
@[simp] theorem State.advancePc_rnd (s : State) : (s.advancePc).rnd = s.rnd := rfl
@[simp] theorem State.advancePc_samples (s : State) : (s.advancePc).samples = s.samples := rfl
@[simp] theorem State.advancePc_schedule (s : State) : (s.advancePc).schedule = s.schedule := rfl
@[simp] theorem State.getV_advancePc (s : State) (r : RegNum) : (s.advancePc).getV r = s.getV r := rfl
@[simp] theorem State.memRead_advancePc (s : State) (a' : Nat) : (s.advancePc).memRead a' = s.memRead a' := rfl
@[simp] theorem State.stackAt_advancePc (s : State) (k' : Nat) : (s.advancePc).stackAt k' = s.stackAt k' := rfl
@[simp] theorem State.pixel_advancePc (s : State) (j : Fin Config.fbCells) : (s.advancePc).pixel j = s.pixel j := rfl

/-! ### `skipIf` -/

@[simp] theorem State.skipIf_v (s : State) (c : Bool) : (s.skipIf c).v = s.v := by cases c <;> rfl
@[simp] theorem State.skipIf_i (s : State) (c : Bool) : (s.skipIf c).i = s.i := by cases c <;> rfl
@[simp] theorem State.skipIf_pc (s : State) (c : Bool) : (s.skipIf c).pc = if c then s.pc + 2 else s.pc := by cases c <;> rfl
@[simp] theorem State.skipIf_sp (s : State) (c : Bool) : (s.skipIf c).sp = s.sp := by cases c <;> rfl
@[simp] theorem State.skipIf_stack (s : State) (c : Bool) : (s.skipIf c).stack = s.stack := by cases c <;> rfl
@[simp] theorem State.skipIf_dt (s : State) (c : Bool) : (s.skipIf c).dt = s.dt := by cases c <;> rfl
@[simp] theorem State.skipIf_st (s : State) (c : Bool) : (s.skipIf c).st = s.st := by cases c <;> rfl
@[simp] theorem State.skipIf_mem (s : State) (c : Bool) : (s.skipIf c).mem = s.mem := by cases c <;> rfl
@[simp] theorem State.skipIf_fb (s : State) (c : Bool) : (s.skipIf c).fb = s.fb := by cases c <;> rfl
@[simp] theorem State.skipIf_redraw (s : State) (c : Bool) : (s.skipIf c).redraw = s.redraw := by cases c <;> rfl
@[simp] theorem State.skipIf_status (s : State) (c : Bool) : (s.skipIf c).status = s.status := by cases c <;> rfl
@[simp] theorem State.skipIf_wx (s : State) (c : Bool) : (s.skipIf c).wx = s.wx := by cases c <;> rfl
@[simp] theorem State.skipIf_cause (s : State) (c : Bool) : (s.skipIf c).cause = s.cause := by cases c <;> rfl
@[simp] theorem State.skipIf_keys (s : State) (c : Bool) : (s.skipIf c).keys = s.keys := by cases c <;> rfl
@[simp] theorem State.skipIf_rnd (s : State) (c : Bool) : (s.skipIf c).rnd = s.rnd := by cases c <;> rfl
@[simp] theorem State.skipIf_samples (s : State) (c : Bool) : (s.skipIf c).samples = s.samples := by cases c <;> rfl
@[simp] theorem State.skipIf_schedule (s : State) (c : Bool) : (s.skipIf c).schedule = s.schedule := by cases c <;> rfl
@[simp] theorem State.getV_skipIf (s : State) (c : Bool) (r : RegNum) : (s.skipIf c).getV r = s.getV r := by cases c <;> rfl
@[simp] theorem State.memRead_skipIf (s : State) (c : Bool) (a' : Nat) : (s.skipIf c).memRead a' = s.memRead a' := by cases c <;> rfl
@[simp] theorem State.stackAt_skipIf (s : State) (c : Bool) (k' : Nat) : (s.skipIf c).stackAt k' = s.stackAt k' := by cases c <;> rfl
@[simp] theorem State.pixel_skipIf (s : State) (c : Bool) (j : Fin Config.fbCells) : (s.skipIf c).pixel j = s.pixel j := by cases c <;> rfl

/-! ### `setDt` -/

@[simp] theorem State.setDt_v (s : State) (b : Byte) : (s.setDt b).v = s.v := rfl
@[simp] theorem State.setDt_i (s : State) (b : Byte) : (s.setDt b).i = s.i := rfl
@[simp] theorem State.setDt_pc (s : State) (b : Byte) : (s.setDt b).pc = s.pc := rfl
@[simp] theorem State.setDt_sp (s : State) (b : Byte) : (s.setDt b).sp = s.sp := rfl
@[simp] theorem State.setDt_stack (s : State) (b : Byte) : (s.setDt b).stack = s.stack := rfl
@[simp] theorem State.setDt_dt (s : State) (b : Byte) : (s.setDt b).dt = b := rfl
@[simp] theorem State.setDt_st (s : State) (b : Byte) : (s.setDt b).st = s.st := rfl
@[simp] theorem State.setDt_mem (s : State) (b : Byte) : (s.setDt b).mem = s.mem := rfl
@[simp] theorem State.setDt_fb (s : State) (b : Byte) : (s.setDt b).fb = s.fb := rfl
@[simp] theorem State.setDt_redraw (s : State) (b : Byte) : (s.setDt b).redraw = s.redraw := rfl
@[simp] theorem State.setDt_status (s : State) (b : Byte) : (s.setDt b).status = s.status := rfl
@[simp] theorem State.setDt_wx (s : State) (b : Byte) : (s.setDt b).wx = s.wx := rfl
@[simp] theorem State.setDt_cause (s : State) (b : Byte) : (s.setDt b).cause = s.cause := rfl
@[simp] theorem State.setDt_keys (s : State) (b : Byte) : (s.setDt b).keys = s.keys := rfl
@[simp] theorem State.setDt_rnd (s : State) (b : Byte) : (s.setDt b).rnd = s.rnd := rfl
@[simp] theorem State.setDt_samples (s : State) (b : Byte) : (s.setDt b).samples = s.samples := rfl
@[simp] theorem State.setDt_schedule (s : State) (b : Byte) : (s.setDt b).schedule = s.schedule := rfl
@[simp] theorem State.getV_setDt (s : State) (b : Byte) (r : RegNum) : (s.setDt b).getV r = s.getV r := rfl
@[simp] theorem State.memRead_setDt (s : State) (b : Byte) (a' : Nat) : (s.setDt b).memRead a' = s.memRead a' := rfl
@[simp] theorem State.stackAt_setDt (s : State) (b : Byte) (k' : Nat) : (s.setDt b).stackAt k' = s.stackAt k' := rfl
@[simp] theorem State.pixel_setDt (s : State) (b : Byte) (j : Fin Config.fbCells) : (s.setDt b).pixel j = s.pixel j := rfl

/-! ### `setSt` -/

@[simp] theorem State.setSt_v (s : State) (b : Byte) : (s.setSt b).v = s.v := rfl
@[simp] theorem State.setSt_i (s : State) (b : Byte) : (s.setSt b).i = s.i := rfl
@[simp] theorem State.setSt_pc (s : State) (b : Byte) : (s.setSt b).pc = s.pc := rfl
@[simp] theorem State.setSt_sp (s : State) (b : Byte) : (s.setSt b).sp = s.sp := rfl
@[simp] theorem State.setSt_stack (s : State) (b : Byte) : (s.setSt b).stack = s.stack := rfl
@[simp] theorem State.setSt_dt (s : State) (b : Byte) : (s.setSt b).dt = s.dt := rfl
@[simp] theorem State.setSt_st (s : State) (b : Byte) : (s.setSt b).st = b := rfl
@[simp] theorem State.setSt_mem (s : State) (b : Byte) : (s.setSt b).mem = s.mem := rfl
@[simp] theorem State.setSt_fb (s : State) (b : Byte) : (s.setSt b).fb = s.fb := rfl
@[simp] theorem State.setSt_redraw (s : State) (b : Byte) : (s.setSt b).redraw = s.redraw := rfl
@[simp] theorem State.setSt_status (s : State) (b : Byte) : (s.setSt b).status = s.status := rfl
@[simp] theorem State.setSt_wx (s : State) (b : Byte) : (s.setSt b).wx = s.wx := rfl
@[simp] theorem State.setSt_cause (s : State) (b : Byte) : (s.setSt b).cause = s.cause := rfl
@[simp] theorem State.setSt_keys (s : State) (b : Byte) : (s.setSt b).keys = s.keys := rfl
@[simp] theorem State.setSt_rnd (s : State) (b : Byte) : (s.setSt b).rnd = s.rnd := rfl
@[simp] theorem State.setSt_samples (s : State) (b : Byte) : (s.setSt b).samples = s.samples := rfl
@[simp] theorem State.setSt_schedule (s : State) (b : Byte) : (s.setSt b).schedule = s.schedule := rfl
@[simp] theorem State.getV_setSt (s : State) (b : Byte) (r : RegNum) : (s.setSt b).getV r = s.getV r := rfl
@[simp] theorem State.memRead_setSt (s : State) (b : Byte) (a' : Nat) : (s.setSt b).memRead a' = s.memRead a' := rfl
@[simp] theorem State.stackAt_setSt (s : State) (b : Byte) (k' : Nat) : (s.setSt b).stackAt k' = s.stackAt k' := rfl
@[simp] theorem State.pixel_setSt (s : State) (b : Byte) (j : Fin Config.fbCells) : (s.setSt b).pixel j = s.pixel j := rfl

/-! ### `memWriteBytes` -/

@[simp] theorem State.memWriteBytes_v (s : State) (a : Nat) (bs : List Byte) : (s.memWriteBytes a bs).v = s.v := rfl
@[simp] theorem State.memWriteBytes_i (s : State) (a : Nat) (bs : List Byte) : (s.memWriteBytes a bs).i = s.i := rfl
@[simp] theorem State.memWriteBytes_pc (s : State) (a : Nat) (bs : List Byte) : (s.memWriteBytes a bs).pc = s.pc := rfl
@[simp] theorem State.memWriteBytes_sp (s : State) (a : Nat) (bs : List Byte) : (s.memWriteBytes a bs).sp = s.sp := rfl
@[simp] theorem State.memWriteBytes_stack (s : State) (a : Nat) (bs : List Byte) : (s.memWriteBytes a bs).stack = s.stack := rfl
@[simp] theorem State.memWriteBytes_dt (s : State) (a : Nat) (bs : List Byte) : (s.memWriteBytes a bs).dt = s.dt := rfl
@[simp] theorem State.memWriteBytes_st (s : State) (a : Nat) (bs : List Byte) : (s.memWriteBytes a bs).st = s.st := rfl
@[simp] theorem State.memWriteBytes_mem (s : State) (a : Nat) (bs : List Byte) : (s.memWriteBytes a bs).mem = s.mem.writeBytes a bs := rfl
@[simp] theorem State.memWriteBytes_fb (s : State) (a : Nat) (bs : List Byte) : (s.memWriteBytes a bs).fb = s.fb := rfl
@[simp] theorem State.memWriteBytes_redraw (s : State) (a : Nat) (bs : List Byte) : (s.memWriteBytes a bs).redraw = s.redraw := rfl
@[simp] theorem State.memWriteBytes_status (s : State) (a : Nat) (bs : List Byte) : (s.memWriteBytes a bs).status = s.status := rfl
@[simp] theorem State.memWriteBytes_wx (s : State) (a : Nat) (bs : List Byte) : (s.memWriteBytes a bs).wx = s.wx := rfl
@[simp] theorem State.memWriteBytes_cause (s : State) (a : Nat) (bs : List Byte) : (s.memWriteBytes a bs).cause = s.cause := rfl
@[simp] theorem State.memWriteBytes_keys (s : State) (a : Nat) (bs : List Byte) : (s.memWriteBytes a bs).keys = s.keys := rfl
@[simp] theorem State.memWriteBytes_rnd (s : State) (a : Nat) (bs : List Byte) : (s.memWriteBytes a bs).rnd = s.rnd := rfl
@[simp] theorem State.memWriteBytes_samples (s : State) (a : Nat) (bs : List Byte) : (s.memWriteBytes a bs).samples = s.samples := rfl
@[simp] theorem State.memWriteBytes_schedule (s : State) (a : Nat) (bs : List Byte) : (s.memWriteBytes a bs).schedule = s.schedule := rfl
@[simp] theorem State.getV_memWriteBytes (s : State) (a : Nat) (bs : List Byte) (r : RegNum) : (s.memWriteBytes a bs).getV r = s.getV r := rfl
@[simp] theorem State.stackAt_memWriteBytes (s : State) (a : Nat) (bs : List Byte) (k' : Nat) : (s.memWriteBytes a bs).stackAt k' = s.stackAt k' := rfl
@[simp] theorem State.pixel_memWriteBytes (s : State) (a : Nat) (bs : List Byte) (j : Fin Config.fbCells) : (s.memWriteBytes a bs).pixel j = s.pixel j := rfl

/-! ### `push` -/

@[simp] theorem State.push_v (s : State) (w : Word) : (s.push w).v = s.v := rfl
@[simp] theorem State.push_i (s : State) (w : Word) : (s.push w).i = s.i := rfl
@[simp] theorem State.push_pc (s : State) (w : Word) : (s.push w).pc = s.pc := rfl
@[simp] theorem State.push_sp (s : State) (w : Word) : (s.push w).sp = s.sp + 1 := rfl
@[simp] theorem State.push_stack (s : State) (w : Word) : (s.push w).stack = s.stack.setIfInBounds (s.sp + 1).toNat w := rfl
@[simp] theorem State.push_dt (s : State) (w : Word) : (s.push w).dt = s.dt := rfl
@[simp] theorem State.push_st (s : State) (w : Word) : (s.push w).st = s.st := rfl
@[simp] theorem State.push_mem (s : State) (w : Word) : (s.push w).mem = s.mem := rfl
@[simp] theorem State.push_fb (s : State) (w : Word) : (s.push w).fb = s.fb := rfl
@[simp] theorem State.push_redraw (s : State) (w : Word) : (s.push w).redraw = s.redraw := rfl
@[simp] theorem State.push_status (s : State) (w : Word) : (s.push w).status = s.status := rfl
@[simp] theorem State.push_wx (s : State) (w : Word) : (s.push w).wx = s.wx := rfl
@[simp] theorem State.push_cause (s : State) (w : Word) : (s.push w).cause = s.cause := rfl
@[simp] theorem State.push_keys (s : State) (w : Word) : (s.push w).keys = s.keys := rfl
@[simp] theorem State.push_rnd (s : State) (w : Word) : (s.push w).rnd = s.rnd := rfl
@[simp] theorem State.push_samples (s : State) (w : Word) : (s.push w).samples = s.samples := rfl
@[simp] theorem State.push_schedule (s : State) (w : Word) : (s.push w).schedule = s.schedule := rfl
@[simp] theorem State.getV_push (s : State) (w : Word) (r : RegNum) : (s.push w).getV r = s.getV r := rfl
@[simp] theorem State.memRead_push (s : State) (w : Word) (a' : Nat) : (s.push w).memRead a' = s.memRead a' := rfl
@[simp] theorem State.pixel_push (s : State) (w : Word) (j : Fin Config.fbCells) : (s.push w).pixel j = s.pixel j := rfl

/-! ### `dropTop` -/

@[simp] theorem State.dropTop_v (s : State) : (s.dropTop).v = s.v := rfl
@[simp] theorem State.dropTop_i (s : State) : (s.dropTop).i = s.i := rfl
@[simp] theorem State.dropTop_pc (s : State) : (s.dropTop).pc = s.pc := rfl
@[simp] theorem State.dropTop_sp (s : State) : (s.dropTop).sp = s.sp - 1 := rfl
@[simp] theorem State.dropTop_stack (s : State) : (s.dropTop).stack = s.stack := rfl
@[simp] theorem State.dropTop_dt (s : State) : (s.dropTop).dt = s.dt := rfl
@[simp] theorem State.dropTop_st (s : State) : (s.dropTop).st = s.st := rfl
@[simp] theorem State.dropTop_mem (s : State) : (s.dropTop).mem = s.mem := rfl
@[simp] theorem State.dropTop_fb (s : State) : (s.dropTop).fb = s.fb := rfl
@[simp] theorem State.dropTop_redraw (s : State) : (s.dropTop).redraw = s.redraw := rfl
@[simp] theorem State.dropTop_status (s : State) : (s.dropTop).status = s.status := rfl
@[simp] theorem State.dropTop_wx (s : State) : (s.dropTop).wx = s.wx := rfl
@[simp] theorem State.dropTop_cause (s : State) : (s.dropTop).cause = s.cause := rfl
@[simp] theorem State.dropTop_keys (s : State) : (s.dropTop).keys = s.keys := rfl
@[simp] theorem State.dropTop_rnd (s : State) : (s.dropTop).rnd = s.rnd := rfl
@[simp] theorem State.dropTop_samples (s : State) : (s.dropTop).samples = s.samples := rfl
@[simp] theorem State.dropTop_schedule (s : State) : (s.dropTop).schedule = s.schedule := rfl
@[simp] theorem State.getV_dropTop (s : State) (r : RegNum) : (s.dropTop).getV r = s.getV r := rfl
@[simp] theorem State.memRead_dropTop (s : State) (a' : Nat) : (s.dropTop).memRead a' = s.memRead a' := rfl
@[simp] theorem State.stackAt_dropTop (s : State) (k' : Nat) : (s.dropTop).stackAt k' = s.stackAt k' := rfl
@[simp] theorem State.pixel_dropTop (s : State) (j : Fin Config.fbCells) : (s.dropTop).pixel j = s.pixel j := rfl

/-! ### `showFb` -/

@[simp] theorem State.showFb_v (s : State) (fb : Framebuffer) : (s.showFb fb).v = s.v := rfl
@[simp] theorem State.showFb_i (s : State) (fb : Framebuffer) : (s.showFb fb).i = s.i := rfl
@[simp] theorem State.showFb_pc (s : State) (fb : Framebuffer) : (s.showFb fb).pc = s.pc := rfl
@[simp] theorem State.showFb_sp (s : State) (fb : Framebuffer) : (s.showFb fb).sp = s.sp := rfl
@[simp] theorem State.showFb_stack (s : State) (fb : Framebuffer) : (s.showFb fb).stack = s.stack := rfl
@[simp] theorem State.showFb_dt (s : State) (fb : Framebuffer) : (s.showFb fb).dt = s.dt := rfl
@[simp] theorem State.showFb_st (s : State) (fb : Framebuffer) : (s.showFb fb).st = s.st := rfl
@[simp] theorem State.showFb_mem (s : State) (fb : Framebuffer) : (s.showFb fb).mem = s.mem := rfl
@[simp] theorem State.showFb_fb (s : State) (fb : Framebuffer) : (s.showFb fb).fb = fb := rfl
@[simp] theorem State.showFb_redraw (s : State) (fb : Framebuffer) : (s.showFb fb).redraw = true := rfl
@[simp] theorem State.showFb_status (s : State) (fb : Framebuffer) : (s.showFb fb).status = s.status := rfl
@[simp] theorem State.showFb_wx (s : State) (fb : Framebuffer) : (s.showFb fb).wx = s.wx := rfl
@[simp] theorem State.showFb_cause (s : State) (fb : Framebuffer) : (s.showFb fb).cause = s.cause := rfl
@[simp] theorem State.showFb_keys (s : State) (fb : Framebuffer) : (s.showFb fb).keys = s.keys := rfl
@[simp] theorem State.showFb_rnd (s : State) (fb : Framebuffer) : (s.showFb fb).rnd = s.rnd := rfl
@[simp] theorem State.showFb_samples (s : State) (fb : Framebuffer) : (s.showFb fb).samples = s.samples := rfl
@[simp] theorem State.showFb_schedule (s : State) (fb : Framebuffer) : (s.showFb fb).schedule = s.schedule := rfl
@[simp] theorem State.getV_showFb (s : State) (fb : Framebuffer) (r : RegNum) : (s.showFb fb).getV r = s.getV r := rfl
@[simp] theorem State.memRead_showFb (s : State) (fb : Framebuffer) (a' : Nat) : (s.showFb fb).memRead a' = s.memRead a' := rfl
@[simp] theorem State.stackAt_showFb (s : State) (fb : Framebuffer) (k' : Nat) : (s.showFb fb).stackAt k' = s.stackAt k' := rfl

/-! ### `enterFault` -/

@[simp] theorem State.enterFault_v (s : State) (c : Cause) : (s.enterFault c).v = s.v := rfl
@[simp] theorem State.enterFault_i (s : State) (c : Cause) : (s.enterFault c).i = s.i := rfl
@[simp] theorem State.enterFault_pc (s : State) (c : Cause) : (s.enterFault c).pc = s.pc := rfl
@[simp] theorem State.enterFault_sp (s : State) (c : Cause) : (s.enterFault c).sp = s.sp := rfl
@[simp] theorem State.enterFault_stack (s : State) (c : Cause) : (s.enterFault c).stack = s.stack := rfl
@[simp] theorem State.enterFault_dt (s : State) (c : Cause) : (s.enterFault c).dt = s.dt := rfl
@[simp] theorem State.enterFault_st (s : State) (c : Cause) : (s.enterFault c).st = s.st := rfl
@[simp] theorem State.enterFault_mem (s : State) (c : Cause) : (s.enterFault c).mem = s.mem := rfl
@[simp] theorem State.enterFault_fb (s : State) (c : Cause) : (s.enterFault c).fb = s.fb := rfl
@[simp] theorem State.enterFault_redraw (s : State) (c : Cause) : (s.enterFault c).redraw = s.redraw := rfl
@[simp] theorem State.enterFault_status (s : State) (c : Cause) : (s.enterFault c).status = .faulted := rfl
@[simp] theorem State.enterFault_wx (s : State) (c : Cause) : (s.enterFault c).wx = s.wx := rfl
@[simp] theorem State.enterFault_cause (s : State) (c : Cause) : (s.enterFault c).cause = c := rfl
@[simp] theorem State.enterFault_keys (s : State) (c : Cause) : (s.enterFault c).keys = s.keys := rfl
@[simp] theorem State.enterFault_rnd (s : State) (c : Cause) : (s.enterFault c).rnd = s.rnd := rfl
@[simp] theorem State.enterFault_samples (s : State) (c : Cause) : (s.enterFault c).samples = s.samples := rfl
@[simp] theorem State.enterFault_schedule (s : State) (c : Cause) : (s.enterFault c).schedule = s.schedule := rfl
@[simp] theorem State.getV_enterFault (s : State) (c : Cause) (r : RegNum) : (s.enterFault c).getV r = s.getV r := rfl
@[simp] theorem State.memRead_enterFault (s : State) (c : Cause) (a' : Nat) : (s.enterFault c).memRead a' = s.memRead a' := rfl
@[simp] theorem State.stackAt_enterFault (s : State) (c : Cause) (k' : Nat) : (s.enterFault c).stackAt k' = s.stackAt k' := rfl
@[simp] theorem State.pixel_enterFault (s : State) (c : Cause) (j : Fin Config.fbCells) : (s.enterFault c).pixel j = s.pixel j := rfl

/-! ### `enterWait` -/

@[simp] theorem State.enterWait_v (s : State) (x : RegNum) : (s.enterWait x).v = s.v := rfl
@[simp] theorem State.enterWait_i (s : State) (x : RegNum) : (s.enterWait x).i = s.i := rfl
@[simp] theorem State.enterWait_pc (s : State) (x : RegNum) : (s.enterWait x).pc = s.pc := rfl
@[simp] theorem State.enterWait_sp (s : State) (x : RegNum) : (s.enterWait x).sp = s.sp := rfl
@[simp] theorem State.enterWait_stack (s : State) (x : RegNum) : (s.enterWait x).stack = s.stack := rfl
@[simp] theorem State.enterWait_dt (s : State) (x : RegNum) : (s.enterWait x).dt = s.dt := rfl
@[simp] theorem State.enterWait_st (s : State) (x : RegNum) : (s.enterWait x).st = s.st := rfl
@[simp] theorem State.enterWait_mem (s : State) (x : RegNum) : (s.enterWait x).mem = s.mem := rfl
@[simp] theorem State.enterWait_fb (s : State) (x : RegNum) : (s.enterWait x).fb = s.fb := rfl
@[simp] theorem State.enterWait_redraw (s : State) (x : RegNum) : (s.enterWait x).redraw = s.redraw := rfl
@[simp] theorem State.enterWait_status (s : State) (x : RegNum) : (s.enterWait x).status = .waiting := rfl
@[simp] theorem State.enterWait_wx (s : State) (x : RegNum) : (s.enterWait x).wx = x := rfl
@[simp] theorem State.enterWait_cause (s : State) (x : RegNum) : (s.enterWait x).cause = s.cause := rfl
@[simp] theorem State.enterWait_keys (s : State) (x : RegNum) : (s.enterWait x).keys = s.keys := rfl
@[simp] theorem State.enterWait_rnd (s : State) (x : RegNum) : (s.enterWait x).rnd = s.rnd := rfl
@[simp] theorem State.enterWait_samples (s : State) (x : RegNum) : (s.enterWait x).samples = s.samples := rfl
@[simp] theorem State.enterWait_schedule (s : State) (x : RegNum) : (s.enterWait x).schedule = s.schedule := rfl
@[simp] theorem State.getV_enterWait (s : State) (x : RegNum) (r : RegNum) : (s.enterWait x).getV r = s.getV r := rfl
@[simp] theorem State.memRead_enterWait (s : State) (x : RegNum) (a' : Nat) : (s.enterWait x).memRead a' = s.memRead a' := rfl
@[simp] theorem State.stackAt_enterWait (s : State) (x : RegNum) (k' : Nat) : (s.enterWait x).stackAt k' = s.stackAt k' := rfl
@[simp] theorem State.pixel_enterWait (s : State) (x : RegNum) (j : Fin Config.fbCells) : (s.enterWait x).pixel j = s.pixel j := rfl

/-! ### `withInputs` -/

@[simp] theorem State.withInputs_v (s : State) (k : KeyLevels) (d : Byte) : (s.withInputs k d).v = s.v := rfl
@[simp] theorem State.withInputs_i (s : State) (k : KeyLevels) (d : Byte) : (s.withInputs k d).i = s.i := rfl
@[simp] theorem State.withInputs_pc (s : State) (k : KeyLevels) (d : Byte) : (s.withInputs k d).pc = s.pc := rfl
@[simp] theorem State.withInputs_sp (s : State) (k : KeyLevels) (d : Byte) : (s.withInputs k d).sp = s.sp := rfl
@[simp] theorem State.withInputs_stack (s : State) (k : KeyLevels) (d : Byte) : (s.withInputs k d).stack = s.stack := rfl
@[simp] theorem State.withInputs_dt (s : State) (k : KeyLevels) (d : Byte) : (s.withInputs k d).dt = s.dt := rfl
@[simp] theorem State.withInputs_st (s : State) (k : KeyLevels) (d : Byte) : (s.withInputs k d).st = s.st := rfl
@[simp] theorem State.withInputs_mem (s : State) (k : KeyLevels) (d : Byte) : (s.withInputs k d).mem = s.mem := rfl
@[simp] theorem State.withInputs_fb (s : State) (k : KeyLevels) (d : Byte) : (s.withInputs k d).fb = s.fb := rfl
@[simp] theorem State.withInputs_redraw (s : State) (k : KeyLevels) (d : Byte) : (s.withInputs k d).redraw = s.redraw := rfl
@[simp] theorem State.withInputs_status (s : State) (k : KeyLevels) (d : Byte) : (s.withInputs k d).status = s.status := rfl
@[simp] theorem State.withInputs_wx (s : State) (k : KeyLevels) (d : Byte) : (s.withInputs k d).wx = s.wx := rfl
@[simp] theorem State.withInputs_cause (s : State) (k : KeyLevels) (d : Byte) : (s.withInputs k d).cause = s.cause := rfl
@[simp] theorem State.withInputs_keys (s : State) (k : KeyLevels) (d : Byte) : (s.withInputs k d).keys = k := rfl
@[simp] theorem State.withInputs_rnd (s : State) (k : KeyLevels) (d : Byte) : (s.withInputs k d).rnd = d := rfl
@[simp] theorem State.withInputs_samples (s : State) (k : KeyLevels) (d : Byte) : (s.withInputs k d).samples = s.samples := rfl
@[simp] theorem State.withInputs_schedule (s : State) (k : KeyLevels) (d : Byte) : (s.withInputs k d).schedule = s.schedule := rfl
@[simp] theorem State.getV_withInputs (s : State) (k : KeyLevels) (d : Byte) (r : RegNum) : (s.withInputs k d).getV r = s.getV r := rfl
@[simp] theorem State.memRead_withInputs (s : State) (k : KeyLevels) (d : Byte) (a' : Nat) : (s.withInputs k d).memRead a' = s.memRead a' := rfl
@[simp] theorem State.stackAt_withInputs (s : State) (k : KeyLevels) (d : Byte) (k' : Nat) : (s.withInputs k d).stackAt k' = s.stackAt k' := rfl
@[simp] theorem State.pixel_withInputs (s : State) (k : KeyLevels) (d : Byte) (j : Fin Config.fbCells) : (s.withInputs k d).pixel j = s.pixel j := rfl

/-! ### `sampleFree` -/

@[simp] theorem State.sampleFree_v (s : State) : (s.sampleFree).v = s.v := rfl
@[simp] theorem State.sampleFree_i (s : State) : (s.sampleFree).i = s.i := rfl
@[simp] theorem State.sampleFree_pc (s : State) : (s.sampleFree).pc = s.pc := rfl
@[simp] theorem State.sampleFree_sp (s : State) : (s.sampleFree).sp = s.sp := rfl
@[simp] theorem State.sampleFree_stack (s : State) : (s.sampleFree).stack = s.stack := rfl
@[simp] theorem State.sampleFree_dt (s : State) : (s.sampleFree).dt = s.dt := rfl
@[simp] theorem State.sampleFree_st (s : State) : (s.sampleFree).st = s.st := rfl
@[simp] theorem State.sampleFree_mem (s : State) : (s.sampleFree).mem = s.mem := rfl
@[simp] theorem State.sampleFree_fb (s : State) : (s.sampleFree).fb = s.fb := rfl
@[simp] theorem State.sampleFree_redraw (s : State) : (s.sampleFree).redraw = s.redraw := rfl
@[simp] theorem State.sampleFree_status (s : State) : (s.sampleFree).status = s.status := rfl
@[simp] theorem State.sampleFree_wx (s : State) : (s.sampleFree).wx = s.wx := rfl
@[simp] theorem State.sampleFree_cause (s : State) : (s.sampleFree).cause = s.cause := rfl
@[simp] theorem State.sampleFree_keys (s : State) : (s.sampleFree).keys = Config.freeKeys s.samples := rfl
@[simp] theorem State.sampleFree_rnd (s : State) : (s.sampleFree).rnd = Config.freeRnd s.samples := rfl
@[simp] theorem State.sampleFree_samples (s : State) : (s.sampleFree).samples = s.samples + 1 := rfl
@[simp] theorem State.sampleFree_schedule (s : State) : (s.sampleFree).schedule = s.schedule := rfl
@[simp] theorem State.getV_sampleFree (s : State) (r : RegNum) : (s.sampleFree).getV r = s.getV r := rfl
@[simp] theorem State.memRead_sampleFree (s : State) (a' : Nat) : (s.sampleFree).memRead a' = s.memRead a' := rfl
@[simp] theorem State.stackAt_sampleFree (s : State) (k' : Nat) : (s.sampleFree).stackAt k' = s.stackAt k' := rfl
@[simp] theorem State.pixel_sampleFree (s : State) (j : Fin Config.fbCells) : (s.sampleFree).pixel j = s.pixel j := rfl

/-! ### `loadRegs` -/

@[simp] theorem State.loadRegs_v (s : State) (a : Nat) (x : RegNum) : (s.loadRegs a x).v = Vector.ofFn fun r => if r.val ≤ x.val then s.memRead (a + r.val) else s.getV r := rfl
@[simp] theorem State.loadRegs_i (s : State) (a : Nat) (x : RegNum) : (s.loadRegs a x).i = s.i := rfl
@[simp] theorem State.loadRegs_pc (s : State) (a : Nat) (x : RegNum) : (s.loadRegs a x).pc = s.pc := rfl
@[simp] theorem State.loadRegs_sp (s : State) (a : Nat) (x : RegNum) : (s.loadRegs a x).sp = s.sp := rfl
@[simp] theorem State.loadRegs_stack (s : State) (a : Nat) (x : RegNum) : (s.loadRegs a x).stack = s.stack := rfl
@[simp] theorem State.loadRegs_dt (s : State) (a : Nat) (x : RegNum) : (s.loadRegs a x).dt = s.dt := rfl
@[simp] theorem State.loadRegs_st (s : State) (a : Nat) (x : RegNum) : (s.loadRegs a x).st = s.st := rfl
@[simp] theorem State.loadRegs_mem (s : State) (a : Nat) (x : RegNum) : (s.loadRegs a x).mem = s.mem := rfl
@[simp] theorem State.loadRegs_fb (s : State) (a : Nat) (x : RegNum) : (s.loadRegs a x).fb = s.fb := rfl
@[simp] theorem State.loadRegs_redraw (s : State) (a : Nat) (x : RegNum) : (s.loadRegs a x).redraw = s.redraw := rfl
@[simp] theorem State.loadRegs_status (s : State) (a : Nat) (x : RegNum) : (s.loadRegs a x).status = s.status := rfl
@[simp] theorem State.loadRegs_wx (s : State) (a : Nat) (x : RegNum) : (s.loadRegs a x).wx = s.wx := rfl
@[simp] theorem State.loadRegs_cause (s : State) (a : Nat) (x : RegNum) : (s.loadRegs a x).cause = s.cause := rfl
@[simp] theorem State.loadRegs_keys (s : State) (a : Nat) (x : RegNum) : (s.loadRegs a x).keys = s.keys := rfl
@[simp] theorem State.loadRegs_rnd (s : State) (a : Nat) (x : RegNum) : (s.loadRegs a x).rnd = s.rnd := rfl
@[simp] theorem State.loadRegs_samples (s : State) (a : Nat) (x : RegNum) : (s.loadRegs a x).samples = s.samples := rfl
@[simp] theorem State.loadRegs_schedule (s : State) (a : Nat) (x : RegNum) : (s.loadRegs a x).schedule = s.schedule := rfl
@[simp] theorem State.memRead_loadRegs (s : State) (a : Nat) (x : RegNum) (a' : Nat) : (s.loadRegs a x).memRead a' = s.memRead a' := rfl
@[simp] theorem State.stackAt_loadRegs (s : State) (a : Nat) (x : RegNum) (k' : Nat) : (s.loadRegs a x).stackAt k' = s.stackAt k' := rfl
@[simp] theorem State.pixel_loadRegs (s : State) (a : Nat) (x : RegNum) (j : Fin Config.fbCells) : (s.loadRegs a x).pixel j = s.pixel j := rfl

/-! ### `setFlagThenResult` -/

@[simp] theorem State.setFlagThenResult_v (s : State) (x : RegNum) (c : Bool) (b : Byte) : (s.setFlagThenResult x c b).v = (s.v.set regF.val (flagByte c)).set x.val b := rfl
@[simp] theorem State.setFlagThenResult_i (s : State) (x : RegNum) (c : Bool) (b : Byte) : (s.setFlagThenResult x c b).i = s.i := rfl
@[simp] theorem State.setFlagThenResult_pc (s : State) (x : RegNum) (c : Bool) (b : Byte) : (s.setFlagThenResult x c b).pc = s.pc := rfl
@[simp] theorem State.setFlagThenResult_sp (s : State) (x : RegNum) (c : Bool) (b : Byte) : (s.setFlagThenResult x c b).sp = s.sp := rfl
@[simp] theorem State.setFlagThenResult_stack (s : State) (x : RegNum) (c : Bool) (b : Byte) : (s.setFlagThenResult x c b).stack = s.stack := rfl
@[simp] theorem State.setFlagThenResult_dt (s : State) (x : RegNum) (c : Bool) (b : Byte) : (s.setFlagThenResult x c b).dt = s.dt := rfl
@[simp] theorem State.setFlagThenResult_st (s : State) (x : RegNum) (c : Bool) (b : Byte) : (s.setFlagThenResult x c b).st = s.st := rfl
@[simp] theorem State.setFlagThenResult_mem (s : State) (x : RegNum) (c : Bool) (b : Byte) : (s.setFlagThenResult x c b).mem = s.mem := rfl
@[simp] theorem State.setFlagThenResult_fb (s : State) (x : RegNum) (c : Bool) (b : Byte) : (s.setFlagThenResult x c b).fb = s.fb := rfl
@[simp] theorem State.setFlagThenResult_redraw (s : State) (x : RegNum) (c : Bool) (b : Byte) : (s.setFlagThenResult x c b).redraw = s.redraw := rfl
@[simp] theorem State.setFlagThenResult_status (s : State) (x : RegNum) (c : Bool) (b : Byte) : (s.setFlagThenResult x c b).status = s.status := rfl
@[simp] theorem State.setFlagThenResult_wx (s : State) (x : RegNum) (c : Bool) (b : Byte) : (s.setFlagThenResult x c b).wx = s.wx := rfl
@[simp] theorem State.setFlagThenResult_cause (s : State) (x : RegNum) (c : Bool) (b : Byte) : (s.setFlagThenResult x c b).cause = s.cause := rfl
@[simp] theorem State.setFlagThenResult_keys (s : State) (x : RegNum) (c : Bool) (b : Byte) : (s.setFlagThenResult x c b).keys = s.keys := rfl
@[simp] theorem State.setFlagThenResult_rnd (s : State) (x : RegNum) (c : Bool) (b : Byte) : (s.setFlagThenResult x c b).rnd = s.rnd := rfl
@[simp] theorem State.setFlagThenResult_samples (s : State) (x : RegNum) (c : Bool) (b : Byte) : (s.setFlagThenResult x c b).samples = s.samples := rfl
@[simp] theorem State.setFlagThenResult_schedule (s : State) (x : RegNum) (c : Bool) (b : Byte) : (s.setFlagThenResult x c b).schedule = s.schedule := rfl
@[simp] theorem State.memRead_setFlagThenResult (s : State) (x : RegNum) (c : Bool) (b : Byte) (a' : Nat) : (s.setFlagThenResult x c b).memRead a' = s.memRead a' := rfl
@[simp] theorem State.stackAt_setFlagThenResult (s : State) (x : RegNum) (c : Bool) (b : Byte) (k' : Nat) : (s.setFlagThenResult x c b).stackAt k' = s.stackAt k' := rfl
@[simp] theorem State.pixel_setFlagThenResult (s : State) (x : RegNum) (c : Bool) (b : Byte) (j : Fin Config.fbCells) : (s.setFlagThenResult x c b).pixel j = s.pixel j := rfl

/-! ### `onTick` -/

@[simp] theorem State.onTick_v (s : State) : (s.onTick).v = s.v := rfl
@[simp] theorem State.onTick_i (s : State) : (s.onTick).i = s.i := rfl
@[simp] theorem State.onTick_pc (s : State) : (s.onTick).pc = s.pc := rfl
@[simp] theorem State.onTick_sp (s : State) : (s.onTick).sp = s.sp := rfl
@[simp] theorem State.onTick_stack (s : State) : (s.onTick).stack = s.stack := rfl
@[simp] theorem State.onTick_dt (s : State) : (s.onTick).dt = countDown s.dt := rfl
@[simp] theorem State.onTick_st (s : State) : (s.onTick).st = countDown s.st := rfl
@[simp] theorem State.onTick_mem (s : State) : (s.onTick).mem = s.mem := rfl
@[simp] theorem State.onTick_fb (s : State) : (s.onTick).fb = s.fb := rfl
@[simp] theorem State.onTick_redraw (s : State) : (s.onTick).redraw = s.redraw := rfl
@[simp] theorem State.onTick_status (s : State) : (s.onTick).status = s.status := rfl
@[simp] theorem State.onTick_wx (s : State) : (s.onTick).wx = s.wx := rfl
@[simp] theorem State.onTick_cause (s : State) : (s.onTick).cause = s.cause := rfl
@[simp] theorem State.onTick_keys (s : State) : (s.onTick).keys = s.keys := rfl
@[simp] theorem State.onTick_rnd (s : State) : (s.onTick).rnd = s.rnd := rfl
@[simp] theorem State.onTick_samples (s : State) : (s.onTick).samples = s.samples := rfl
@[simp] theorem State.onTick_schedule (s : State) : (s.onTick).schedule = s.schedule := rfl
@[simp] theorem State.getV_onTick (s : State) (r : RegNum) : (s.onTick).getV r = s.getV r := rfl
@[simp] theorem State.memRead_onTick (s : State) (a' : Nat) : (s.onTick).memRead a' = s.memRead a' := rfl
@[simp] theorem State.stackAt_onTick (s : State) (k' : Nat) : (s.onTick).stackAt k' = s.stackAt k' := rfl
@[simp] theorem State.pixel_onTick (s : State) (j : Fin Config.fbCells) : (s.onTick).pixel j = s.pixel j := rfl

/-! ### `onRedrawAck` -/

@[simp] theorem State.onRedrawAck_v (s : State) : (s.onRedrawAck).v = s.v := rfl
@[simp] theorem State.onRedrawAck_i (s : State) : (s.onRedrawAck).i = s.i := rfl
@[simp] theorem State.onRedrawAck_pc (s : State) : (s.onRedrawAck).pc = s.pc := rfl
@[simp] theorem State.onRedrawAck_sp (s : State) : (s.onRedrawAck).sp = s.sp := rfl
@[simp] theorem State.onRedrawAck_stack (s : State) : (s.onRedrawAck).stack = s.stack := rfl
@[simp] theorem State.onRedrawAck_dt (s : State) : (s.onRedrawAck).dt = s.dt := rfl
@[simp] theorem State.onRedrawAck_st (s : State) : (s.onRedrawAck).st = s.st := rfl
@[simp] theorem State.onRedrawAck_mem (s : State) : (s.onRedrawAck).mem = s.mem := rfl
@[simp] theorem State.onRedrawAck_fb (s : State) : (s.onRedrawAck).fb = s.fb := rfl
@[simp] theorem State.onRedrawAck_redraw (s : State) : (s.onRedrawAck).redraw = false := rfl
@[simp] theorem State.onRedrawAck_status (s : State) : (s.onRedrawAck).status = s.status := rfl
@[simp] theorem State.onRedrawAck_wx (s : State) : (s.onRedrawAck).wx = s.wx := rfl
@[simp] theorem State.onRedrawAck_cause (s : State) : (s.onRedrawAck).cause = s.cause := rfl
@[simp] theorem State.onRedrawAck_keys (s : State) : (s.onRedrawAck).keys = s.keys := rfl
@[simp] theorem State.onRedrawAck_rnd (s : State) : (s.onRedrawAck).rnd = s.rnd := rfl
@[simp] theorem State.onRedrawAck_samples (s : State) : (s.onRedrawAck).samples = s.samples := rfl
@[simp] theorem State.onRedrawAck_schedule (s : State) : (s.onRedrawAck).schedule = s.schedule := rfl
@[simp] theorem State.getV_onRedrawAck (s : State) (r : RegNum) : (s.onRedrawAck).getV r = s.getV r := rfl
@[simp] theorem State.memRead_onRedrawAck (s : State) (a' : Nat) : (s.onRedrawAck).memRead a' = s.memRead a' := rfl
@[simp] theorem State.stackAt_onRedrawAck (s : State) (k' : Nat) : (s.onRedrawAck).stackAt k' = s.stackAt k' := rfl
@[simp] theorem State.pixel_onRedrawAck (s : State) (j : Fin Config.fbCells) : (s.onRedrawAck).pixel j = s.pixel j := rfl

end Sys2Proof.Machine
end

