-- ==== Sys2Proof/Laws/Regs.lean ====
section
/-! SUPPORT. Read after write for the register file and the stack array. -/

namespace Sys2Proof.Machine

/-- A register reads as what was written to it last, any other as before (R10). -/
@[simp] theorem State.getV_setV (s : State) (x r : RegNum) (b : Byte) :
    (s.setV x b).getV r = if r = x then b else s.getV r := by
  simp only [State.getV, State.setV, Vector.getElem_set, Fin.ext_iff, eq_comm]

/-- After the flag and the result are written, x holds the result, VF the flag unless x is F (R100). -/
@[simp] theorem State.getV_setFlagThenResult (s : State) (x r : RegNum) (c : Bool) (b : Byte) :
    (s.setFlagThenResult x c b).getV r = if r = x then b else if r = regF then flagByte c else s.getV r := by
  simp only [State.setFlagThenResult, State.getV_setV]

/-- After a block load, V0..Vx hold the bytes from `a` on, the others what they held (R148). -/
@[simp] theorem State.getV_loadRegs (s : State) (a : Nat) (x r : RegNum) :
    (s.loadRegs a x).getV r = if r.val ≤ x.val then s.memRead (a + r.val) else s.getV r := by
  simp only [State.getV, State.loadRegs, Vector.getElem_ofFn]

/-- Two register files that read alike are equal. -/
theorem State.v_ext {s t : State} (h : ∀ r, t.getV r = s.getV r) : t.v = s.v := by
  apply Vector.ext
  intro k hk
  exact h ⟨k, hk⟩

/-- After a push, entry SP + 1 holds the pushed word, any other what it held (R15, R85). -/
theorem State.stackAt_push (s : State) (w : Word) (k : Nat) :
    (s.push w).stackAt k = if k = (s.sp + 1).toNat ∧ k < Config.stackEntries then some w else s.stackAt k := by
  simp only [State.stackAt, State.push, Vector.getElem?_setIfInBounds]
  generalize (s.sp + 1).toNat = j
  by_cases h : j = k
  · subst h
    by_cases h' : j < Config.stackEntries
    · simp [h']
    · simp [h']
  · simp [h, Ne.symm h]

/-- There is an entry exactly below 16 (R15). -/
theorem State.stackAt_eq_none_iff (s : State) (k : Nat) : s.stackAt k = none ↔ Config.stackEntries ≤ k := by
  simp [State.stackAt]

end Sys2Proof.Machine
end

