-- ==== Sys2Proof/Laws/Memory.lean ====
section
/-! SUPPORT. The memory: every operation keeps the canonical form, a read gives what was written last, and two
memories in canonical form that read alike are equal. -/

namespace Sys2Proof.Machine

/-- `(c, d)` is below every cell of `m`. -/
abbrev Memory.below (c : Nat) (m : Memory) : Prop := ∀ e ∈ m, c < e.1

theorem Memory.wf_cons (c : Nat) (d : Byte) (m : Memory) :
    Memory.wf ((c, d) :: m) = true ↔
      c < Config.memSize ∧ d ≠ resetByte c ∧ Memory.below c m ∧ Memory.wf m = true := by
  simp [Memory.wf, Memory.below, and_assoc]

/-- A cell below all the listed ones reads as its reset byte. -/
theorem Memory.get_below {c : Nat} {m : Memory} (h : Memory.below c m) : Memory.get m c = resetByte c := by
  induction m with
  | nil => rfl
  | cons e m ih =>
    obtain ⟨a, b⟩ := e
    have ha : c < a := h (a, b) (by simp)
    rw [Memory.get, if_neg (by omega), ih fun e he => h e (by simp [he])]

/-- A read after a write: the byte written at its cell, any other cell as before. -/
theorem Memory.get_set {m : Memory} (h : Memory.wf m = true) (a : Nat) (b : Byte) (a' : Nat) :
    Memory.get (Memory.set m a b) a' = if a' = a then b else Memory.get m a' := by
  induction m with
  | nil =>
    by_cases hb : b = resetByte a
    · by_cases ha : a' = a <;> simp [Memory.set, Memory.get, hb, ha]
    · by_cases ha : a' = a
      · simp [Memory.set, Memory.get, hb, ha]
      · simp [Memory.set, Memory.get, hb, ha, Ne.symm ha]
  | cons e m ih =>
    obtain ⟨c, d⟩ := e
    obtain ⟨-, hd, hlow, hm⟩ := (Memory.wf_cons c d m).1 h
    by_cases hca : c < a
    · by_cases hc' : c = a'
      · subst hc'
        simp [Memory.set, Memory.get, hca, Nat.ne_of_lt hca]
      · simp [Memory.set, Memory.get, hca, hc', ih hm]
    · have hlow' : Memory.below a m := fun e he => lt_of_le_of_lt (by omega) (hlow e he)
      have hget := Memory.get_below hlow'
      by_cases ha : a' = a
      · subst ha
        by_cases hc : c = a'
        · subst hc
          by_cases hb : b = resetByte c <;> simp [Memory.set, Memory.get, hb, hget]
        · by_cases hb : b = resetByte a' <;> simp [Memory.set, Memory.get, hca, hc, hb, hget]
      · by_cases hc : c = a
        · subst hc
          by_cases hb : b = resetByte c <;> simp [Memory.set, Memory.get, hb, Ne.symm ha, ha]
        · by_cases hb : b = resetByte a <;> simp [Memory.set, Memory.get, hca, hc, hb, Ne.symm ha, ha]

/-- The cells of a memory after a write are those before, and the written one. -/
theorem Memory.mem_set {m : Memory} {a : Nat} {b : Byte} {e : Host.Cell} (he : e ∈ Memory.set m a b) :
    e = (a, b) ∨ e ∈ m := by
  induction m with
  | nil =>
    by_cases hb : b = resetByte a <;> simp_all [Memory.set]
  | cons f m ih =>
    obtain ⟨c, d⟩ := f
    simp only [Memory.set] at he
    split_ifs at he <;> simp only [List.mem_cons] at he ⊢ <;> tauto

/-- A write of one cell keeps the canonical form. -/
theorem Memory.wf_set {m : Memory} (h : Memory.wf m = true) {a : Nat} (ha : a < Config.memSize) (b : Byte) :
    Memory.wf (Memory.set m a b) = true := by
  induction m with
  | nil =>
    by_cases hb : b = resetByte a
    · simp [Memory.set, hb, Memory.wf]
    · simp [Memory.set, hb, Memory.wf, ha]
  | cons e m ih =>
    obtain ⟨c, d⟩ := e
    obtain ⟨hc, hd, hlow, hm⟩ := (Memory.wf_cons c d m).1 h
    by_cases hca : c < a
    · simp only [Memory.set, if_pos hca]
      refine (Memory.wf_cons _ _ _).2 ⟨hc, hd, fun e he => ?_, ih hm⟩
      rcases Memory.mem_set he with rfl | he
      · exact hca
      · exact hlow e he
    · have hlow' : Memory.below a m := fun e he => lt_of_le_of_lt (by omega) (hlow e he)
      by_cases hb : b = resetByte a
      · by_cases hc' : c = a
        · simpa [Memory.set, hb, hc'] using hm
        · simpa [Memory.set, hca, hb, hc'] using h
      · by_cases hc' : c = a
        · simp only [Memory.set, if_neg hca, if_neg hb, if_pos hc']
          exact (Memory.wf_cons _ _ _).2 ⟨ha, hb, hlow', hm⟩
        · simp only [Memory.set, if_neg hca, if_neg hb, if_neg hc']
          refine (Memory.wf_cons _ _ _).2 ⟨ha, hb, fun e he => ?_, h⟩
          rcases List.mem_cons.1 he with rfl | he
          · show a < c
            omega
          · exact hlow' e he

/-- `MemWrite` keeps the canonical form: its cell is reduced (R41). -/
theorem Memory.wf_write {m : Memory} (h : Memory.wf m = true) (a : Nat) (b : Byte) :
    Memory.wf (m.write a b) = true :=
  Memory.wf_set h (Nat.mod_lt _ (by decide)) b

/-- `MemRead` after `MemWrite` (R41, R50). -/
theorem Memory.read_write {m : Memory} (h : Memory.wf m = true) (a : Nat) (b : Byte) (a' : Nat) :
    (m.write a b).read a' = if a' % Config.memSize = a % Config.memSize then b else m.read a' :=
  Memory.get_set h _ _ _

/-- Byte writes keep the canonical form. -/
theorem Memory.wf_writeBytes {m : Memory} (h : Memory.wf m = true) (a : Nat) (bs : List Byte) :
    Memory.wf (m.writeBytes a bs) = true := by
  induction bs generalizing m a with
  | nil => exact h
  | cons b bs ih => exact ih (Memory.wf_write h a b) (a + 1)

/-- A cell none of the written addresses reduces to reads as before. -/
theorem Memory.read_writeBytes_outside {m : Memory} (h : Memory.wf m = true) (a : Nat) (bs : List Byte) (a' : Nat)
    (hout : ∀ k < bs.length, a' % Config.memSize ≠ (a + k) % Config.memSize) :
    (m.writeBytes a bs).read a' = m.read a' := by
  induction bs generalizing m a with
  | nil => rfl
  | cons b bs ih =>
    have h0 : a' % Config.memSize ≠ a % Config.memSize := hout 0 (by simp)
    rw [Memory.writeBytes, ih (Memory.wf_write h a b) (a + 1), Memory.read_write h, if_neg h0]
    intro k hk
    have := hout (k + 1) (by simpa using hk)
    rwa [show a + 1 + k = a + (k + 1) by omega]

/-- Byte `k` of at most 4096 written bytes is read back at `a + k`. -/
theorem Memory.read_writeBytes_at {m : Memory} (h : Memory.wf m = true) (a : Nat) (bs : List Byte)
    (hlen : bs.length ≤ Config.memSize) (k : Nat) (hk : k < bs.length) :
    (m.writeBytes a bs).read (a + k) = bs[k] := by
  induction bs generalizing m a k with
  | nil => simp at hk
  | cons b bs ih =>
    simp only [List.length_cons] at hlen hk
    cases k with
    | zero =>
      rw [Memory.writeBytes, Memory.read_writeBytes_outside (Memory.wf_write h a b), Memory.read_write h]
      · simp
      · intro k hk'
        simp only [Config.memSize] at hlen ⊢
        omega
    | succ k =>
      rw [Memory.writeBytes, show a + (k + 1) = a + 1 + k by omega,
        ih (Memory.wf_write h a b) (a + 1) (by omega) k (by omega)]
      simp

/-- Two memories in canonical form that read alike everywhere are the same list. -/
theorem Memory.ext_of_read {m n : Memory} (hm : Memory.wf m = true) (hn : Memory.wf n = true)
    (h : ∀ a < Config.memSize, Memory.get m a = Memory.get n a) : m = n := by
  induction m generalizing n with
  | nil =>
    cases n with
    | nil => rfl
    | cons e n =>
      obtain ⟨c, d⟩ := e
      obtain ⟨hc, hd, -, -⟩ := (Memory.wf_cons c d n).1 hn
      have := h c hc
      simp [Memory.get] at this
      exact absurd this.symm hd
  | cons e m ih =>
    obtain ⟨c, d⟩ := e
    obtain ⟨hc, hd, hlow, hwf⟩ := (Memory.wf_cons c d m).1 hm
    cases n with
    | nil =>
      have := h c hc
      simp [Memory.get] at this
      exact absurd this hd
    | cons f n =>
      obtain ⟨c', d'⟩ := f
      obtain ⟨hc', hd', hlow', hwf'⟩ := (Memory.wf_cons c' d' n).1 hn
      rcases Nat.lt_trichotomy c c' with hlt | rfl | hlt
      · have h1 := h c hc
        rw [Memory.get_below (c := c) (m := (c', d') :: n) fun e he => by
          rcases List.mem_cons.1 he with rfl | he
          · exact hlt
          · exact lt_trans hlt (hlow' e he)] at h1
        simp [Memory.get] at h1
        exact absurd h1 hd
      · have h1 := h c hc
        simp [Memory.get] at h1
        subst h1
        rw [ih hwf hwf' fun a ha => ?_]
        by_cases hca : c = a
        · subst hca
          rw [Memory.get_below hlow, Memory.get_below hlow']
        · simpa [Memory.get, hca] using h a ha
      · have h1 := h c' hc'
        rw [Memory.get_below (c := c') (m := (c, d) :: m) fun e he => by
          rcases List.mem_cons.1 he with rfl | he
          · exact hlt
          · exact lt_trans hlt (hlow e he)] at h1
        simp [Memory.get] at h1
        exact absurd h1.symm hd'

end Sys2Proof.Machine
end

