-- ==== Sys2Proof/Laws/Screen.lean ====
section
/-! SUPPORT. The framebuffer: what one inverted cell changes, what a drawing changes, and that two framebuffers that
read alike are equal. -/

namespace Sys2Proof.Machine

theorem cell_split (j : Fin Config.fbCells) : j.val = j.val % Config.fbW + (cellRow j).val * Config.fbW := by
  simp only [cellRow, Config.fbW]
  omega

/-- Inverting cell `j` inverts it and leaves every other cell as it was (R121). -/
theorem Framebuffer.get_flip (fb : Framebuffer) (j k : Fin Config.fbCells) :
    Framebuffer.get (Framebuffer.flip fb j) k = (Framebuffer.get fb k ^^ decide (k = j)) := by
  have hj := cell_split j
  have hk := cell_split k
  simp only [Framebuffer.get, Framebuffer.flip, Vector.getElem_set]
  by_cases hrow : (cellRow j).val = (cellRow k).val
  · have h : decide (j.val % Config.fbW = k.val % Config.fbW) = decide (k = j) := by
      apply decide_eq_decide.2
      rw [Fin.ext_iff]
      constructor <;> intro h <;> simp only [hrow, Config.fbW] at * <;> omega
    simp only [hrow, if_true, BitVec.getLsbD_xor, BitVec.getLsbD_twoPow]
    have hlt : j.val % Config.fbW < Config.fbW := Nat.mod_lt _ (by decide)
    simp [← h, hlt]
  · have h : k ≠ j := fun h => hrow (by rw [h])
    simp [hrow, h]

/-- Every cell of the cleared framebuffer is 0 (R81). -/
@[simp] theorem Framebuffer.get_clear (j : Fin Config.fbCells) : Framebuffer.get Framebuffer.clear j = false := by
  simp [Framebuffer.get, Framebuffer.clear]

/-- Two framebuffers that read alike are equal. -/
theorem Framebuffer.ext_of_get {f g : Framebuffer} (h : ∀ j, Framebuffer.get f j = Framebuffer.get g j) : f = g := by
  apply Vector.ext
  intro r hr
  apply BitVec.eq_of_getLsbD_eq
  intro c hc
  have hr' : r < 32 := hr
  have hc' : c < 64 := hc
  have := h ⟨c + r * Config.fbW, by simp only [Config.fbW, Config.fbCells]; omega⟩
  have h1 : (c + r * Config.fbW) / Config.fbW = r := by simp only [Config.fbW]; omega
  have h2 : (c + r * Config.fbW) % Config.fbW = c := by simp only [Config.fbW]; omega
  simpa only [Framebuffer.get, cellRow, h1, h2] using this

/-- A drawing from any start: the cells listed an odd number of times are inverted. -/
theorem foldl_flipCell_fst (fb : Framebuffer) (hit : Bool) (cells : List (Fin Config.fbCells))
    (k : Fin Config.fbCells) :
    Framebuffer.get (cells.foldl flipCell (fb, hit)).1 k =
      (Framebuffer.get fb k ^^ decide (cells.count k % 2 = 1)) := by
  induction cells generalizing fb hit with
  | nil => simp
  | cons c cells ih =>
    rw [List.foldl_cons, flipCell, ih, Framebuffer.get_flip, List.count_cons]
    by_cases h : c = k
    · subst h
      rcases Nat.mod_two_eq_zero_or_one (cells.count c) with h2 | h2 <;>
        simp [h2, Nat.add_mod]
    · simp [h, Ne.symm h]

/-- A drawing from any start, of cells that are all different: `hit` iff it was, or one of them was 1. -/
theorem foldl_flipCell_snd (fb : Framebuffer) (hit : Bool) (cells : List (Fin Config.fbCells)) (hnd : cells.Nodup) :
    (cells.foldl flipCell (fb, hit)).2 = (hit || cells.any fun c => Framebuffer.get fb c) := by
  induction cells generalizing fb hit with
  | nil => simp
  | cons c cells ih =>
    obtain ⟨hc, hnd⟩ := List.nodup_cons.1 hnd
    rw [List.foldl_cons, flipCell, ih _ _ hnd, List.any_cons, Bool.or_assoc]
    congr 2
    rw [Bool.eq_iff_iff]
    simp only [List.any_eq_true]
    refine exists_congr fun d => and_congr_right fun hd => ?_
    rw [Framebuffer.get_flip, decide_eq_false fun h => hc (by rwa [h] at hd)]
    simp

/-- What a drawing of different cells does to the framebuffer (R121). -/
theorem get_drawCells (fb : Framebuffer) {cells : List (Fin Config.fbCells)} (hnd : cells.Nodup)
    (k : Fin Config.fbCells) :
    Framebuffer.get (drawCells fb cells).1 k = (Framebuffer.get fb k ^^ decide (k ∈ cells)) := by
  rw [drawCells, foldl_flipCell_fst]
  congr 1
  by_cases h : k ∈ cells
  · simp [h, List.count_eq_one_of_mem hnd h]
  · simp [h, List.count_eq_zero_of_not_mem h]

/-- Whether a drawing of different cells collides: one of them was 1 (R121). -/
theorem drawCells_hit (fb : Framebuffer) {cells : List (Fin Config.fbCells)} (hnd : cells.Nodup) :
    (drawCells fb cells).2 = cells.any fun c => Framebuffer.get fb c := by
  rw [drawCells, foldl_flipCell_snd fb false cells hnd, Bool.false_or]

end Sys2Proof.Machine
end

