-- ==== Sys2Proof/Laws/Sprite.lean ====
section
/-! SUPPORT. The cells a sprite covers: which they are, and that no cell is visited twice (R122). -/

namespace Sys2Proof.Machine

/-- Pixels less than 64 columns and less than 32 rows apart lie on different cells. -/
theorem cellOf_inj {vx vy c c' r r' : Nat} (hc : c < 8) (hc' : c' < 8) (hr : r < 32) (hr' : r' < 32)
    (h : cellOf (vx + c) (vy + r) = cellOf (vx + c') (vy + r')) : c = c' ∧ r = r' := by
  have h := Fin.ext_iff.1 h
  simp only [cellOf, Config.fbW, Config.fbH] at h
  omega

theorem mem_rowCells (b : Byte) (vx py : Nat) (j : Fin Config.fbCells) :
    j ∈ rowCells b vx py ↔ ∃ col < 8, spriteBit b col = true ∧ cellOf (vx + col) py = j := by
  simp only [rowCells, List.mem_filterMap, List.mem_range]
  refine exists_congr fun col => and_congr_right fun _ => ?_
  split_ifs with h <;> simp [h]

/-- The covered cells are those under a set pixel of the sprite (R121). -/
theorem State.mem_spriteCells (s : State) (base vx vy n : Nat) (j : Fin Config.fbCells) :
    j ∈ s.spriteCells base vx vy n ↔
      ∃ row < n, ∃ col < 8, spriteBit (s.memRead (base + row)) col = true ∧ cellOf (vx + col) (vy + row) = j := by
  simp only [State.spriteCells, List.mem_flatMap, List.mem_range, mem_rowCells]

theorem rowCells_nodup (b : Byte) (vx vy r : Nat) (hr : r < 32) : (rowCells b vx (vy + r)).Nodup := by
  refine List.Pairwise.filterMap _ ?_ (List.Pairwise.and_mem.1 List.pairwise_lt_range)
  intro c c' ⟨hc, hc', hlt⟩ j hj j' hj' heq
  split_ifs at hj hj'
  simp only [Option.some.injEq] at hj hj'
  subst hj hj'
  have := (cellOf_inj (List.mem_range.1 hc) (List.mem_range.1 hc') hr hr heq).1
  omega

/-- No cell is visited twice (R122). -/
theorem State.spriteCells_nodup (s : State) (base vx vy n : Nat) (hn : n ≤ 32) :
    (s.spriteCells base vx vy n).Nodup := by
  refine List.nodup_flatMap.2 ⟨fun r hr => ?_, ?_⟩
  · have := List.mem_range.1 hr
    exact rowCells_nodup _ _ _ _ (by omega)
  · refine (List.Pairwise.and_mem.1 List.pairwise_lt_range).imp ?_
    intro r r' ⟨hr, hr', hlt⟩ j hj hj'
    obtain ⟨c, hc, -, rfl⟩ := (mem_rowCells _ _ _ _).1 hj
    obtain ⟨c', hc', -, heq⟩ := (mem_rowCells _ _ _ _).1 hj'
    have hr := List.mem_range.1 hr
    have hr' := List.mem_range.1 hr'
    have := (cellOf_inj hc' hc (by omega) (by omega) heq).2
    omega

end Sys2Proof.Machine
end

