-- ==== Sys2Proof/Laws/Exec.lean ====
section
/-! SUPPORT. What each shared operation of the meanings can do: what it leaves as it was, and what it does to the
invariant. -/

namespace Sys2Proof.Machine

/-- Advancing PC and writing one V register changes nothing else. -/
theorem onlyChanges_setV (s : State) (x : RegNum) (b : Byte) : OnlyChanges s (s.advancePc.setV x b) [x] [.pc] := by
  refine ⟨fun r hr => ?_, fun p hp => ?_⟩
  · simp only [List.mem_singleton] at hr
    simp [hr]
  · cases p <;> simp_all [Part.same]

/-- Advancing PC and writing flag and result changes nothing but PC, Vx and VF (R100). -/
theorem onlyChanges_setFlagThenResult (s : State) (x : RegNum) (c : Bool) (b : Byte) :
    OnlyChanges s (s.advancePc.setFlagThenResult x c b) [x, regF] [.pc] := by
  refine ⟨fun r hr => ?_, fun p hp => ?_⟩
  · simp only [List.mem_cons, List.not_mem_nil, or_false, not_or] at hr
    simp [hr]
  · cases p <;> simp_all [Part.same]

/-- A skip changes nothing but PC (R91). -/
theorem onlyChanges_skipIf (s : State) (c : Bool) : OnlyChanges s (s.advancePc.skipIf c) [] [.pc] := by
  refine ⟨fun r _ => by simp, fun p hp => ?_⟩
  cases p <;> simp_all [Part.same]

/-- An instruction of form `V[x] <- b` always completes, with `b` in Vx and only Vx and PC changed. -/
theorem resultToV_spec (s : State) (x : RegNum) (b : Byte) :
    ∃ t, resultToV s x b = .next t ∧ t.getV x = b ∧ t.pc = s.pc + 2 ∧ OnlyChanges s t [x] [.pc] :=
  ⟨_, rfl, by simp, by simp, onlyChanges_setV s x b⟩

/-- An instruction of form `V[F] <- flag; V[x] <- b` always completes: Vx holds `b`, VF the flag unless x is F. -/
theorem flagAndResult_spec (s : State) (x : RegNum) (c : Bool) (b : Byte) :
    ∃ t, flagAndResult s x c b = .next t ∧ t.getV x = b ∧ (x ≠ regF → t.getV regF = flagByte c) ∧
      t.pc = s.pc + 2 ∧ OnlyChanges s t [x, regF] [.pc] := by
  refine ⟨_, rfl, by simp, fun h => ?_, by simp, onlyChanges_setFlagThenResult s x c b⟩
  simp [Ne.symm h]

/-- The fault entry changes nothing but STATUS and CAUSE (R163). -/
theorem onlyChanges_enterFault (s : State) (c : Cause) : OnlyChanges s (s.enterFault c) [] [.status, .cause] := by
  refine ⟨fun r _ => by simp, fun p hp => ?_⟩
  cases p <;> simp_all [Part.same]

/-- The entry into the wait for a key changes nothing but STATUS and WX (R133). -/
theorem onlyChanges_enterWait (s : State) (x : RegNum) : OnlyChanges s (s.enterWait x) [] [.status, .wx] := by
  refine ⟨fun r _ => by simp, fun p hp => ?_⟩
  cases p <;> simp_all [Part.same]

/-- Sampling the inputs changes nothing of the block (R30, R31). -/
theorem onlyChanges_sampleFree (s : State) : OnlyChanges s s.sampleFree [] [.keys, .rnd, .samples] := by
  refine ⟨fun r _ => by simp, fun p hp => ?_⟩
  cases p <;> simp_all [Part.same]

/-- A read after the byte writes of an instruction whose written block fits the memory (R41, R43). -/
theorem State.memRead_memWriteBytes_at {s : State} (h : s.mem.wf = true) (a : Nat) (bs : List Byte)
    (hlen : bs.length ≤ Config.memSize) (k : Nat) (hk : k < bs.length) :
    (s.memWriteBytes a bs).memRead (a + k) = bs[k] :=
  Memory.read_writeBytes_at h a bs hlen k hk

/-- A cell outside the written block reads as before. -/
theorem State.memRead_memWriteBytes_outside {s : State} (h : s.mem.wf = true) (a : Nat) (bs : List Byte) (a' : Nat)
    (hout : ∀ k < bs.length, a' % Config.memSize ≠ (a + k) % Config.memSize) :
    (s.memWriteBytes a bs).memRead a' = s.memRead a' :=
  Memory.read_writeBytes_outside h a bs a' hout

/-- The registers V0..Vx are x + 1 bytes, byte `k` is Vk (R147). -/
theorem State.regsUpTo_length (s : State) (x : RegNum) : (s.regsUpTo x).length = x.val + 1 := by
  simp only [State.regsUpTo, List.length_take, Vector.length_toList]
  omega

theorem State.regsUpTo_get (s : State) (x : RegNum) (r : RegNum) (h : r.val < (s.regsUpTo x).length) :
    (s.regsUpTo x)[r.val] = s.getV r := by
  simp [State.regsUpTo, State.getV]

/-- What RET's pop and CALL's push do to SP. -/
theorem State.push_sp_toNat (s : State) (w : Word) (h : s.sp.toNat < Config.stackMaxDepth) :
    (s.push w).sp.toNat = s.sp.toNat + 1 := by
  have h1 : (1 : BitVec 8).toNat = 1 := rfl
  simp only [State.push_sp, BitVec.toNat_add, Config.stackMaxDepth, h1] at h ⊢
  omega

/-! ### The invariant (R38) -/

/-- A state that agrees with `s` on SP, the stack, STATUS and CAUSE, and has a memory in canonical form, keeps the
invariant. -/
theorem State.Inv.of_same {s t : State} (h : s.Inv) (hsp : t.sp = s.sp) (hst : ∀ k, t.stackAt k = s.stackAt k)
    (hstatus : t.status = s.status) (hcause : t.cause = s.cause) (hmem : t.mem.wf = true) : t.Inv where
  spLegal := by rw [hsp]; exact h.spLegal
  causeIffFaulted := by rw [hstatus, hcause]; exact h.causeIffFaulted
  bottomZero := by rw [hst]; exact h.bottomZero
  memWf := hmem

/-- Byte writes keep the invariant. -/
theorem State.Inv.memWriteBytes {s : State} (h : s.Inv) (a : Nat) (bs : List Byte) : (s.memWriteBytes a bs).Inv :=
  h.of_same (by simp) (by simp) (by simp) (by simp) (by simpa using Memory.wf_writeBytes h.memWf a bs)

end Sys2Proof.Machine
end

