-- ==== Sys2Proof/Laws/Fields.lean ====
section
/-! SUPPORT. What each field of an encoded word is (R63), what a mask keeps of it (R66), and that the types of the
operands make every instruction well formed. -/

namespace Sys2Proof

@[simp] theorem nibble_toFin (x : Fin 16) : (nibble x).toFin = x := rfl

theorem getLsbD_encNNN (u : BitVec 4) (a : Addr) (k : Nat) :
    (encNNN u a).getLsbD k = if k < 12 then a.getLsbD k else u.getLsbD (k - 12) :=
  BitVec.getLsbD_append

theorem getLsbD_encXKK (u : BitVec 4) (x : RegNum) (b : Byte) (k : Nat) :
    (encXKK u x b).getLsbD k =
      if k < 8 then b.getLsbD k else if k - 8 < 4 then (nibble x).getLsbD (k - 8) else u.getLsbD (k - 8 - 4) :=
  (BitVec.getLsbD_append (x := u ++ nibble x) (y := b)).trans (by rw [BitVec.getLsbD_append])

theorem getLsbD_encXYN (u : BitVec 4) (x y : RegNum) (n : Fin 16) (k : Nat) :
    (encXYN u x y n).getLsbD k =
      if k < 4 then (nibble n).getLsbD k else if k - 4 < 4 then (nibble y).getLsbD (k - 4)
      else if k - 4 - 4 < 4 then (nibble x).getLsbD (k - 4 - 4) else u.getLsbD (k - 4 - 4 - 4) :=
  (BitVec.getLsbD_append (x := u ++ nibble x ++ nibble y) (y := nibble n)).trans
    (by rw [BitVec.getLsbD_append, BitVec.getLsbD_append])

@[simp] theorem fieldU_encNNN (u : BitVec 4) (a : Addr) : fieldU (encNNN u a) = u := by
  apply BitVec.eq_of_getLsbD_eq
  intro k hk
  simp [fieldU, getLsbD_encNNN, hk]

@[simp] theorem fieldNNN_encNNN (u : BitVec 4) (a : Addr) : fieldNNN (encNNN u a) = a := by
  apply BitVec.eq_of_getLsbD_eq
  intro k hk
  simp [fieldNNN, getLsbD_encNNN, hk]

@[simp] theorem fieldU_encXKK (u : BitVec 4) (x : RegNum) (b : Byte) : fieldU (encXKK u x b) = u := by
  apply BitVec.eq_of_getLsbD_eq
  intro k hk
  simp [fieldU, getLsbD_encXKK, hk, show ¬12 + k < 8 by omega, show ¬12 + k - 8 < 4 by omega,
    show 12 + k - 8 - 4 = k by omega]

@[simp] theorem fieldX_encXKK (u : BitVec 4) (x : RegNum) (b : Byte) : fieldX (encXKK u x b) = x := by
  rw [fieldX, show (encXKK u x b).extractLsb' 8 4 = nibble x from ?_, nibble_toFin]
  apply BitVec.eq_of_getLsbD_eq
  intro k hk
  simp [getLsbD_encXKK, hk]

@[simp] theorem fieldKK_encXKK (u : BitVec 4) (x : RegNum) (b : Byte) : fieldKK (encXKK u x b) = b := by
  apply BitVec.eq_of_getLsbD_eq
  intro k hk
  simp [fieldKK, getLsbD_encXKK, hk]

@[simp] theorem fieldU_encXYN (u : BitVec 4) (x y : RegNum) (n : Fin 16) : fieldU (encXYN u x y n) = u := by
  apply BitVec.eq_of_getLsbD_eq
  intro k hk
  simp [fieldU, getLsbD_encXYN, hk, show ¬12 + k < 4 by omega, show ¬12 + k - 4 < 4 by omega,
    show ¬12 + k - 4 - 4 < 4 by omega, show 12 + k - 4 - 4 - 4 = k by omega]

@[simp] theorem fieldX_encXYN (u : BitVec 4) (x y : RegNum) (n : Fin 16) : fieldX (encXYN u x y n) = x := by
  rw [fieldX, show (encXYN u x y n).extractLsb' 8 4 = nibble x from ?_, nibble_toFin]
  apply BitVec.eq_of_getLsbD_eq
  intro k hk
  simp [getLsbD_encXYN, hk, show ¬8 + k < 4 by omega, show ¬8 + k - 4 < 4 by omega,
    show 8 + k - 4 - 4 = k by omega]

@[simp] theorem fieldY_encXYN (u : BitVec 4) (x y : RegNum) (n : Fin 16) : fieldY (encXYN u x y n) = y := by
  rw [fieldY, show (encXYN u x y n).extractLsb' 4 4 = nibble y from ?_, nibble_toFin]
  apply BitVec.eq_of_getLsbD_eq
  intro k hk
  simp [getLsbD_encXYN, hk]

@[simp] theorem fieldN_encXYN (u : BitVec 4) (x y : RegNum) (n : Fin 16) : fieldN (encXYN u x y n) = n := by
  rw [fieldN, show (encXYN u x y n).extractLsb' 0 4 = nibble n from ?_, nibble_toFin]
  apply BitVec.eq_of_getLsbD_eq
  intro k hk
  simp [getLsbD_encXYN, hk]

/-- A word is its group and its address field. -/
theorem encNNN_fields (op : Word) : encNNN (fieldU op) (fieldNNN op) = op := by
  apply BitVec.eq_of_getLsbD_eq
  intro k hk
  by_cases h : k < 12
  · simp [getLsbD_encNNN, fieldU, fieldNNN, h]
  · simp [getLsbD_encNNN, fieldU, fieldNNN, h, show k - 12 < 4 by omega, show 12 + (k - 12) = k by omega]

/-- A word is its group, its register field and its low byte. -/
theorem encXKK_fields (op : Word) : encXKK (fieldU op) (fieldX op) (fieldKK op) = op := by
  apply BitVec.eq_of_getLsbD_eq
  intro k hk
  rw [getLsbD_encXKK, show nibble (fieldX op) = op.extractLsb' 8 4 from rfl]
  by_cases h : k < 8
  · simp [fieldKK, h]
  · by_cases h' : k - 8 < 4
    · simp [h, h', show 8 + (k - 8) = k by omega]
    · simp [fieldU, h, h', show k - 8 - 4 < 4 by omega,
        show 12 + (k - 8 - 4) = k by omega]

/-- A word is its four nibbles. -/
theorem encXYN_fields (op : Word) : encXYN (fieldU op) (fieldX op) (fieldY op) (fieldN op) = op := by
  apply BitVec.eq_of_getLsbD_eq
  intro k hk
  rw [getLsbD_encXYN, show nibble (fieldX op) = op.extractLsb' 8 4 from rfl,
    show nibble (fieldY op) = op.extractLsb' 4 4 from rfl, show nibble (fieldN op) = op.extractLsb' 0 4 from rfl]
  by_cases h : k < 4
  · simp [h]
  · by_cases h' : k - 4 < 4
    · simp [h, h', show 4 + (k - 4) = k by omega]
    · by_cases h'' : k - 4 - 4 < 4
      · simp [h, h', h'', show 8 + (k - 4 - 4) = k by omega]
      · simp [fieldU, h, h', h'', show k - 4 - 4 - 4 < 4 by omega,
          show 12 + (k - 4 - 4 - 4) = k by omega]

/-- The mask F000 keeps the group. -/
theorem encNNN_mask (u : BitVec 4) (a : Addr) : encNNN u a &&& 0xF000 = u ++ 0#12 := by
  rw [show (0xF000 : Word) = 0xF#4 ++ 0#12 from rfl, encNNN, BitVec.and_append]
  simp only [show (15#4 : BitVec 4) = BitVec.allOnes 4 from rfl, BitVec.and_allOnes, BitVec.and_zero]

/-- The mask F000 keeps the group. -/
theorem encXKK_mask (u : BitVec 4) (x : RegNum) (b : Byte) : encXKK u x b &&& 0xF000 = u ++ 0#12 := by
  rw [show (0xF000 : Word) = 0xF#4 ++ 0#4 ++ 0#8 from rfl, encXKK, BitVec.and_append, BitVec.and_append]
  simp only [show (15#4 : BitVec 4) = BitVec.allOnes 4 from rfl, BitVec.and_allOnes, BitVec.and_zero]
  revert u
  decide

/-- The mask F0FF keeps the group and the low byte. -/
theorem encXKK_mask_kk (u : BitVec 4) (x : RegNum) (b : Byte) : encXKK u x b &&& 0xF0FF = u ++ 0#4 ++ b := by
  rw [show (0xF0FF : Word) = 0xF#4 ++ 0#4 ++ 0xFF#8 from rfl, encXKK, BitVec.and_append, BitVec.and_append]
  simp only [show (15#4 : BitVec 4) = BitVec.allOnes 4 from rfl, show (255#8 : Byte) = BitVec.allOnes 8 from rfl,
    BitVec.and_allOnes, BitVec.and_zero]

/-- The mask F00F keeps the group and the last nibble. -/
theorem encXYN_mask (u : BitVec 4) (x y : RegNum) (n : Fin 16) :
    encXYN u x y n &&& 0xF00F = u ++ 0#4 ++ 0#4 ++ nibble n := by
  rw [show (0xF00F : Word) = 0xF#4 ++ 0#4 ++ 0#4 ++ 0xF#4 from rfl, encXYN, BitVec.and_append, BitVec.and_append,
    BitVec.and_append]
  simp only [show (15#4 : BitVec 4) = BitVec.allOnes 4 from rfl, BitVec.and_allOnes, BitVec.and_zero]

/-- The mask F000 keeps the group, also of a word of four nibbles. -/
theorem encXYN_mask_group (u : BitVec 4) (x y : RegNum) (n : Fin 16) : encXYN u x y n &&& 0xF000 = u ++ 0#12 := by
  rw [show (0xF000 : Word) = 0xF#4 ++ 0#4 ++ 0#4 ++ 0#4 from rfl, encXYN, BitVec.and_append, BitVec.and_append,
    BitVec.and_append]
  simp only [show (15#4 : BitVec 4) = BitVec.allOnes 4 from rfl, BitVec.and_allOnes, BitVec.and_zero]
  revert u
  decide

end Sys2Proof

namespace Sys2Proof.Laws

/-- Every instruction is well formed: the types of its operands bound them (assumption log 18). -/
theorem wellFormed_true (i : Instr) : i.wellFormed = true := by
  cases i <;> simp [Instr.wellFormed, Instr.operandBounds, operandFits] <;> omega

end Sys2Proof.Laws
end

