-- ==== Sys2Proof/Laws/PerInstr.lean ====
section
/-! SUPPORT. Statements about every instruction as syntax, one lemma per constructor.

Family `EncodesItsRow`: the word `encode` gives an instruction is of the instruction's row of R66, mask and match. -/

namespace Sys2Proof.Laws.EncodesItsRow

/-- The encoded word, masked, is the row's match (R66). -/
def Statement (i : Instr) : Prop := encode i &&& (opcodeRow i).1 = (opcodeRow i).2

theorem halt : Statement (.halt) := rfl
theorem cls : Statement (.cls) := rfl
theorem ret : Statement (.ret) := rfl
theorem jp (nnn : Addr) : Statement (.jp nnn) := encNNN_mask _ nnn
theorem call (nnn : Addr) : Statement (.call nnn) := encNNN_mask _ nnn
theorem seImm (x : RegNum) (kk : Byte) : Statement (.seImm x kk) := encXKK_mask _ x kk
theorem sneImm (x : RegNum) (kk : Byte) : Statement (.sneImm x kk) := encXKK_mask _ x kk
theorem seReg (x : RegNum) (y : RegNum) : Statement (.seReg x y) := encXYN_mask _ x y _
theorem ldImm (x : RegNum) (kk : Byte) : Statement (.ldImm x kk) := encXKK_mask _ x kk
theorem addImm (x : RegNum) (kk : Byte) : Statement (.addImm x kk) := encXKK_mask _ x kk
theorem ldReg (x : RegNum) (y : RegNum) : Statement (.ldReg x y) := encXYN_mask _ x y _
theorem orReg (x : RegNum) (y : RegNum) : Statement (.orReg x y) := encXYN_mask _ x y _
theorem andReg (x : RegNum) (y : RegNum) : Statement (.andReg x y) := encXYN_mask _ x y _
theorem xorReg (x : RegNum) (y : RegNum) : Statement (.xorReg x y) := encXYN_mask _ x y _
theorem addReg (x : RegNum) (y : RegNum) : Statement (.addReg x y) := encXYN_mask _ x y _
theorem subReg (x : RegNum) (y : RegNum) : Statement (.subReg x y) := encXYN_mask _ x y _
theorem shr (x : RegNum) (y : RegNum) : Statement (.shr x y) := encXYN_mask _ x y _
theorem subnReg (x : RegNum) (y : RegNum) : Statement (.subnReg x y) := encXYN_mask _ x y _
theorem shl (x : RegNum) (y : RegNum) : Statement (.shl x y) := encXYN_mask _ x y _
theorem sneReg (x : RegNum) (y : RegNum) : Statement (.sneReg x y) := encXYN_mask _ x y _
theorem ldI (nnn : Addr) : Statement (.ldI nnn) := encNNN_mask _ nnn
theorem jpV0 (nnn : Addr) : Statement (.jpV0 nnn) := encNNN_mask _ nnn
theorem rnd (x : RegNum) (kk : Byte) : Statement (.rnd x kk) := encXKK_mask _ x kk
theorem drw (x : RegNum) (y : RegNum) (n : Fin 16) : Statement (.drw x y n) := encXYN_mask_group _ x y n
theorem skp (x : RegNum) : Statement (.skp x) := encXKK_mask_kk _ x _
theorem sknp (x : RegNum) : Statement (.sknp x) := encXKK_mask_kk _ x _
theorem ldVxDt (x : RegNum) : Statement (.ldVxDt x) := encXKK_mask_kk _ x _
theorem ldVxK (x : RegNum) : Statement (.ldVxK x) := encXKK_mask_kk _ x _
theorem ldDtVx (x : RegNum) : Statement (.ldDtVx x) := encXKK_mask_kk _ x _
theorem ldStVx (x : RegNum) : Statement (.ldStVx x) := encXKK_mask_kk _ x _
theorem addI (x : RegNum) : Statement (.addI x) := encXKK_mask_kk _ x _
theorem ldF (x : RegNum) : Statement (.ldF x) := encXKK_mask_kk _ x _
theorem ldB (x : RegNum) : Statement (.ldB x) := encXKK_mask_kk _ x _
theorem storeRegs (x : RegNum) : Statement (.storeRegs x) := encXKK_mask_kk _ x _
theorem loadRegs (x : RegNum) : Statement (.loadRegs x) := encXKK_mask_kk _ x _

end Sys2Proof.Laws.EncodesItsRow
end

