-- ==== Sys2Proof/Laws/Step.lean ====
section
/-! SUPPORT. The step by cases: the event it takes. -/

namespace Sys2Proof.Machine

/-- With a schedule, the step takes its oldest event. -/
theorem step_of_cons {s : State} {e : Event} {rest : List Event} (h : s.schedule = e :: rest) :
    step s = State.takeEvent { s with schedule := rest } e := by
  simp only [step, State.takeNext, h]

/-- With the schedule used up, the step is a Step event with free input levels. -/
theorem step_of_nil {s : State} (h : s.schedule = []) : step s = s.onStep s.sampleFree := by
  simp only [step, State.takeNext, h]

/-- With a schedule, the next event is its oldest. -/
theorem State.nextEvent_of_cons {s : State} {e : Event} {rest : List Event} (h : s.schedule = e :: rest) :
    s.nextEvent = e := by
  simp only [State.nextEvent, h]

/-- The next event is a Step exactly when the schedule is used up or begins with one. -/
theorem State.nextEvent_step_iff (s : State) : (∃ k d, s.nextEvent = .step k d) ↔
    (s.schedule = [] ∨ ∃ k d rest, s.schedule = .step k d :: rest) := by
  cases h : s.schedule with
  | nil => simp [State.nextEvent, h]
  | cons e rest => simp [State.nextEvent, h]

/-- The next event is a Load exactly when the schedule begins with it. -/
theorem State.nextEvent_load_iff (s : State) (bytes : List Byte) :
    s.nextEvent = .load bytes ↔ ∃ rest, s.schedule = .load bytes :: rest := by
  cases h : s.schedule with
  | nil => simp [State.nextEvent, h]
  | cons e rest => simp [State.nextEvent, h]

/-- `unknown_opcode` is 1 only during a Step, and then exactly on an unknown word (R36). -/
theorem State.unknownOpcodeOut_iff (s : State) :
    s.unknownOpcodeOut = true ↔ (∃ k d, s.nextEvent = .step k d) ∧ s.stepsOnUnknownOpcode = true := by
  unfold State.unknownOpcodeOut
  cases s.nextEvent <;> simp

/-- `load_error` is 1 exactly during a Load that is refused (R36). -/
theorem State.loadErrorOut_iff (s : State) :
    s.loadErrorOut = true ↔ ∃ bytes, s.nextEvent = .load bytes ∧ loadError bytes = true := by
  unfold State.loadErrorOut
  cases s.nextEvent <;> simp

/-- A Step executes an unknown word exactly in RUNNING, on a word that decodes to no instruction (R68). -/
theorem State.stepsOnUnknownOpcode_iff (s : State) :
    s.stepsOnUnknownOpcode = true ↔ s.status = .running ∧ ∀ i, decodeWord s.fetchWord ≠ .ok i := by
  unfold State.stepsOnUnknownOpcode
  cases s.status <;> cases decodeWord s.fetchWord <;> simp

/-- A Step event in RUNNING fetches, decodes and executes. -/
theorem State.onStep_running {s : State} (u : State) (h : s.status = .running) : s.onStep u = u.runInstruction := by
  simp only [State.onStep, h]

/-- A Step event in WAITING or FAULTED answers the state as it was. -/
theorem State.onStep_not_running {s : State} (u : State) (h : s.status ≠ .running) : s.onStep u = .next s := by
  cases hs : s.status
  · exact absurd hs h
  · simp only [State.onStep, hs]
  · simp only [State.onStep, hs]

/-- Running a word that decodes is running its instruction. -/
theorem State.runInstruction_ok {s : State} {i : Instr} (h : decodeWord s.fetchWord = .ok i) :
    s.runInstruction = exec i s := by
  simp only [State.runInstruction, h]

/-- Running a word that is no instruction advances PC (R68). -/
theorem State.runInstruction_error {s : State} {e : DecodeReject} (h : decodeWord s.fetchWord = .error e) :
    s.runInstruction = .next s.advancePc := by
  simp only [State.runInstruction, h]

/-- Sampling the inputs does not change what is fetched. -/
@[simp] theorem State.fetchWord_sampleFree (s : State) : s.sampleFree.fetchWord = s.fetchWord := rfl

@[simp] theorem State.fetchWord_withInputs (s : State) (k : KeyLevels) (d : Byte) :
    (s.withInputs k d).fetchWord = s.fetchWord := rfl

/-- What one run step is. -/
theorem core_run_succ {n : Nat} {s s' : State} (h : step s = .next s') :
    Host.Core.run Sys2Proof.core (n + 1) s = Host.Core.run Sys2Proof.core n s' := by
  have h' : Host.Core.step Sys2Proof.core s = .next s' := h
  simp only [Host.Core.run, h']

end Sys2Proof.Machine
end

