-- ==== Sys2Proof/Tests/Slice0.lean ====
section
/-! SUPPORT. Tests. Expected results are the spec's own: the words of 30_encoding.md R66 and 95_test_vectors.md B1, the
vectors of 95_test_vectors.md B2 to B7 (the section is named at each group). Then one witness for the hypotheses of each
statement of Certificates/Slice0/Obligations.lean. -/

namespace Sys2Proof.Tests

open Sys2Proof.Machine

/-! ### WellFormed -/

/-- A register number or row count of 16 does not fit its field. -/
theorem test_wellFormed_refuses_nibble_16 : operandFits (16, 16) = false := by decide
/-- A `kk` of 256 does not fit its field. -/
theorem test_wellFormed_refuses_kk_256 : operandFits (256, 256) = false := by decide
/-- An `nnn` of 4096 does not fit its field. -/
theorem test_wellFormed_refuses_nnn_4096 : operandFits (4096, 0x1000) = false := by decide
/-- A program of 3585 bytes is refused (B7), one of 3584 is not. -/
theorem test_wellFormed_refuses_long_program : programWellFormed (List.replicate 3585 0) = false :=
  decide_eq_false (by rw [List.length_replicate]; decide)
theorem test_wellFormed_takes_longest_program : programWellFormed (List.replicate 3584 0) = true :=
  decide_eq_true (by rw [List.length_replicate])

/-! ### Decode: every row of R66, its word bit by bit, fields u, x, y, n -/

theorem test_decode_halt : decodeWord 0b0000000000000000 = .ok .halt := by decide
theorem test_decode_cls : decodeWord 0b0000000011100000 = .ok .cls := by decide
theorem test_decode_ret : decodeWord 0b0000000011101110 = .ok .ret := by decide
theorem test_decode_jp : decodeWord 0b0001001000110100 = .ok (.jp 0x234) := by decide
theorem test_decode_call : decodeWord 0b0010101010111100 = .ok (.call 0xABC) := by decide
theorem test_decode_seImm : decodeWord 0b0011001100101010 = .ok (.seImm 3 0x2A) := by decide
theorem test_decode_sneImm : decodeWord 0b0100001100101010 = .ok (.sneImm 3 0x2A) := by decide
theorem test_decode_seReg : decodeWord 0b0101000100100000 = .ok (.seReg 1 2) := by decide
theorem test_decode_ldImm : decodeWord 0b0110000000001010 = .ok (.ldImm 0 0x0A) := by decide
theorem test_decode_addImm : decodeWord 0b0111001000000101 = .ok (.addImm 2 0x05) := by decide
theorem test_decode_ldReg : decodeWord 0b1000000100100000 = .ok (.ldReg 1 2) := by decide
theorem test_decode_orReg : decodeWord 0b1000000100100001 = .ok (.orReg 1 2) := by decide
theorem test_decode_andReg : decodeWord 0b1000000100100010 = .ok (.andReg 1 2) := by decide
theorem test_decode_xorReg : decodeWord 0b1000000100100011 = .ok (.xorReg 1 2) := by decide
theorem test_decode_addReg : decodeWord 0b1000000100100100 = .ok (.addReg 1 2) := by decide
theorem test_decode_subReg : decodeWord 0b1000000100100101 = .ok (.subReg 1 2) := by decide
theorem test_decode_shr : decodeWord 0b1000000111110110 = .ok (.shr 1 15) := by decide
theorem test_decode_subnReg : decodeWord 0b1000000100100111 = .ok (.subnReg 1 2) := by decide
theorem test_decode_shl : decodeWord 0b1000000100101110 = .ok (.shl 1 2) := by decide
theorem test_decode_sneReg : decodeWord 0b1001000100100000 = .ok (.sneReg 1 2) := by decide
theorem test_decode_ldI : decodeWord 0b1010001011110000 = .ok (.ldI 0x2F0) := by decide
theorem test_decode_jpV0 : decodeWord 0b1011111111111111 = .ok (.jpV0 0xFFF) := by decide
theorem test_decode_rnd : decodeWord 0b1100001100001111 = .ok (.rnd 3 0x0F) := by decide
theorem test_decode_drw : decodeWord 0b1101000100100101 = .ok (.drw 1 2 5) := by decide
theorem test_decode_skp : decodeWord 0b1110001010011110 = .ok (.skp 2) := by decide
theorem test_decode_sknp : decodeWord 0b1110001010100001 = .ok (.sknp 2) := by decide
theorem test_decode_ldVxDt : decodeWord 0b1111001100000111 = .ok (.ldVxDt 3) := by decide
theorem test_decode_ldVxK : decodeWord 0b1111111100001010 = .ok (.ldVxK 15) := by decide
theorem test_decode_ldDtVx : decodeWord 0b1111001100010101 = .ok (.ldDtVx 3) := by decide
theorem test_decode_ldStVx : decodeWord 0b1111001100011000 = .ok (.ldStVx 3) := by decide
theorem test_decode_addI : decodeWord 0b1111001100011110 = .ok (.addI 3) := by decide
theorem test_decode_ldF : decodeWord 0b1111001100101001 = .ok (.ldF 3) := by decide
theorem test_decode_ldB : decodeWord 0b1111001100110011 = .ok (.ldB 3) := by decide
theorem test_decode_storeRegs : decodeWord 0b1111001101010101 = .ok (.storeRegs 3) := by decide
theorem test_decode_loadRegs : decodeWord 0b1111001001100101 = .ok (.loadRegs 2) := by decide

/-- The unknown words of B1. -/
theorem test_decode_unknown : ([0x0001, 0x00E1, 0x00EF, 0x0123, 0x00FD, 0x5121, 0x8128, 0x812D, 0x812F, 0x9121, 0xE29F,
    0xE200, 0xF266, 0xF275, 0xF230, 0xF200] : List Word).all
    (fun w => decide (decodeWord w = .error (.unknownOpcode w))) = true := by decide
theorem test_decode_truncated : decodeBytes [0x12] = .error .truncated := by decide
/-- The table's numbering: bit 0 is the least significant bit of the word, stored big-endian. -/
theorem test_decode_table_word : decodeTableWord 16 0x2ABC = some (.call 0xABC) := by decide

/-! ### One Step on a word at PC -/

/-- The state after Reset with these registers. -/
def withRegs (l : List (RegNum × Byte)) : State := l.foldl (fun s p => s.setV p.1 p.2) State.reset

/-- Whether one Step on the word `op` at PC, with these input levels, gives a state `f` holds of. -/
def stepOn (s : State) (op : Word) (f : State → Bool) (keys : KeyLevels := 0) (rnd : Byte := 0) : Bool :=
  match step { s.withOpcode op with schedule := [.step keys rnd] } with
  | .next t => f t
  | .fault _ => false
  | .refused _ => false

/-- Whether one event gives a state `f` holds of. -/
def eventOn (s : State) (e : Event) (f : State → Bool) : Bool :=
  match step { s with schedule := [e] } with
  | .next t => f t
  | .fault _ => false
  | .refused _ => false

/-! B2 -/

theorem test_halt : stepOn State.reset 0x0000 (fun t => t.pc = 0x200 ∧ t.mem = []) = true := by decide
theorem test_cls : stepOn { State.reset with fb := Vector.replicate 32 (BitVec.allOnes 64), redraw := false } 0x00E0
    (fun t => t.fb = Framebuffer.clear ∧ t.redraw ∧ t.pc = 0x202) = true := by decide
theorem test_ret : stepOn { State.reset with sp := 2, stack := State.reset.stack.set 2 0x0ABC } 0x00EE
    (fun t => t.pc = 0x0ABC ∧ t.sp = 1 ∧ t.stackAt 2 = some 0x0ABC) = true := by decide
theorem test_ret_underflow : stepOn State.reset 0x00EE
    (fun t => t.status = .faulted ∧ t.cause.code = 2 ∧ t.pc = 0x200 ∧ t.sp = 0) = true := by decide
theorem test_jp_odd : stepOn State.reset 0x1FFF (fun t => t.pc = 0x0FFF) = true := by decide
theorem test_fetch_wraps : eventOn ({ State.reset with pc := 0x0FFF }.memWriteBytes 0xFFF [0x12]) (.step 0 0)
    (fun t => t.pc = 0x02F0) = true := by decide
theorem test_call_wraps_return : stepOn { State.reset with pc := 0x0FFE } 0x2ABC
    (fun t => t.sp = 1 ∧ t.stackAt 1 = some 0x1000 ∧ t.pc = 0x0ABC) = true := by decide
theorem test_call_overflow : stepOn { State.reset with sp := 15 } 0x2300
    (fun t => t.status = .faulted ∧ t.cause.code = 1 ∧ t.pc = 0x200 ∧ t.sp = 15) = true := by decide
theorem test_seImm : stepOn (withRegs [(3, 0x2A)]) 0x332A (fun t => t.pc = 0x204) = true := by decide
theorem test_seImm_wraps : stepOn { State.reset with pc := 0xFFFE } 0x3000 (fun t => t.pc = 0x0002) = true := by decide
theorem test_sneImm : stepOn (withRegs [(3, 0x2B)]) 0x432A (fun t => t.pc = 0x204) = true := by decide
theorem test_seReg : stepOn (withRegs [(1, 7), (2, 8)]) 0x5120 (fun t => t.pc = 0x202) = true := by decide
theorem test_sneReg : stepOn (withRegs [(1, 7), (2, 8)]) 0x9120 (fun t => t.pc = 0x204) = true := by decide
theorem test_jpV0 : stepOn (withRegs [(0, 0xFF)]) 0xBFFF (fun t => t.pc = 0x10FE) = true := by decide
theorem test_jpV0_not_vx : stepOn (withRegs [(5, 0x99)]) 0xB512 (fun t => t.pc = 0x0512) = true := by decide
theorem test_unknown : stepOn State.reset 0x5121 (fun t => t.pc = 0x202 ∧ t.status = .running) = true := by decide

/-! B3 -/

theorem test_ldImm : stepOn State.reset 0x6F12 (fun t => t.getV 15 = 0x12 ∧ t.pc = 0x202) = true := by decide
theorem test_addImm_wraps : stepOn (withRegs [(2, 0xFF), (15, 1)]) 0x7201
    (fun t => t.getV 2 = 0 ∧ t.getV 15 = 1) = true := by decide
theorem test_ldReg : stepOn (withRegs [(1, 0x11), (2, 0x22)]) 0x8120
    (fun t => t.getV 1 = 0x22 ∧ t.getV 2 = 0x22) = true := by decide
theorem test_orReg : stepOn (withRegs [(1, 0xF0), (2, 0x0F), (15, 1)]) 0x8121
    (fun t => t.getV 1 = 0xFF ∧ t.getV 15 = 1) = true := by decide
theorem test_andReg : stepOn (withRegs [(1, 0xF0), (2, 0x3C), (15, 1)]) 0x8122
    (fun t => t.getV 1 = 0x30 ∧ t.getV 15 = 1) = true := by decide
theorem test_xorReg : stepOn (withRegs [(1, 0xF0), (2, 0x3C), (15, 1)]) 0x8123
    (fun t => t.getV 1 = 0xCC ∧ t.getV 15 = 1) = true := by decide
theorem test_addReg_no_carry : stepOn (withRegs [(1, 0x80), (2, 0x7F), (15, 1)]) 0x8124
    (fun t => t.getV 1 = 0xFF ∧ t.getV 15 = 0) = true := by decide
theorem test_addReg_vf_both : stepOn (withRegs [(15, 0x90)]) 0x8FF4 (fun t => t.getV 15 = 0x20) = true := by decide
theorem test_subReg_equal : stepOn (withRegs [(1, 7), (2, 7)]) 0x8125
    (fun t => t.getV 1 = 0 ∧ t.getV 15 = 1) = true := by decide
theorem test_subReg_borrow : stepOn (withRegs [(1, 5), (2, 10), (15, 1)]) 0x8125
    (fun t => t.getV 1 = 0xFB ∧ t.getV 15 = 0) = true := by decide
theorem test_shr_ignores_y : stepOn (withRegs [(1, 4), (10, 0x33), (15, 1)]) 0x81A6
    (fun t => t.getV 1 = 2 ∧ t.getV 10 = 0x33 ∧ t.getV 15 = 0) = true := by decide
theorem test_shr_vf : stepOn (withRegs [(15, 5)]) 0x8F06 (fun t => t.getV 15 = 2) = true := by decide
theorem test_subnReg : stepOn (withRegs [(1, 10), (2, 5), (15, 1)]) 0x8127
    (fun t => t.getV 1 = 0xFB ∧ t.getV 15 = 0) = true := by decide
theorem test_shl : stepOn (withRegs [(1, 0x81), (2, 0x33)]) 0x812E
    (fun t => t.getV 1 = 2 ∧ t.getV 2 = 0x33 ∧ t.getV 15 = 1) = true := by decide
theorem test_ldI : stepOn { State.reset with i := 0x1234 } 0xAFFF (fun t => t.i = 0x0FFF) = true := by decide

/-! B4 -/

theorem test_rnd : stepOn State.reset 0xC30F (fun t => t.getV 3 = 0x07) 0 0xB7 = true := by decide
theorem test_drw_wraps : stepOn ({ withRegs [(0, 0xFF), (1, 0xFF)] with i := 0x300 }.memWriteBytes 0x300 [0xC0]) 0xD011
    (fun t => t.pixel 2047 ∧ t.pixel 1984 ∧ !t.pixel 2046 ∧ t.getV 15 = 0) = true := by decide
theorem test_drw_collides : stepOn ({ State.reset with i := 0x300, fb := Framebuffer.clear.flip 0 }.memWriteBytes 0x300
    [0xC0]) 0xD011 (fun t => !t.pixel 0 ∧ t.pixel 1 ∧ t.getV 15 = 1 ∧ t.redraw) = true := by decide

/-! B5 -/

theorem test_skp : stepOn (withRegs [(2, 0x0F)]) 0xE29E (fun t => t.pc = 0x204) 0x8000 = true := by decide
theorem test_skp_above_15 : stepOn (withRegs [(2, 0x10)]) 0xE29E (fun t => t.pc = 0x202) 0xFFFF = true := by decide
theorem test_sknp : stepOn (withRegs [(2, 0x05)]) 0xE2A1 (fun t => t.pc = 0x202) 0x0020 = true := by decide
theorem test_sknp_above_15 : stepOn (withRegs [(2, 0x15)]) 0xE2A1 (fun t => t.pc = 0x204) 0xFFFF = true := by decide
theorem test_ldVxK : stepOn State.reset 0xF30A
    (fun t => t.status = .waiting ∧ t.wx = 3 ∧ t.pc = 0x202 ∧ t.getV 3 = 0) 0xFFFF = true := by decide
theorem test_keyEvent : eventOn { State.reset with status := .waiting, wx := 3 } (.keyEvent 0xA)
    (fun t => t.getV 3 = 0x0A ∧ t.status = .running ∧ t.pc = 0x200) = true := by decide
theorem test_keyEvent_running : eventOn State.reset (.keyEvent 7) (fun t => t = State.reset) = true := by decide

/-! B6, B7 -/

theorem test_ldVxDt : stepOn { State.reset with dt := 0x2A } 0xF307 (fun t => t.getV 3 = 0x2A ∧ t.dt = 0x2A) = true := by
  decide
theorem test_ldDtVx : stepOn (withRegs [(3, 0x3C)]) 0xF315 (fun t => t.dt = 0x3C) = true := by decide
theorem test_ldStVx : stepOn (withRegs [(3, 3)]) 0xF318 (fun t => t.st = 3 ∧ t.tone) = true := by decide
theorem test_addI_wraps : stepOn { withRegs [(3, 1)] with i := 0xFFFF } 0xF31E (fun t => t.i = 0) = true := by decide
theorem test_ldF_low_nibble : stepOn (withRegs [(3, 0x1A)]) 0xF329 (fun t => t.i = 0x0032) = true := by decide
theorem test_ldB_wraps : stepOn { withRegs [(3, 0x7B)] with i := 0x0FFE } 0xF333
    (fun t => t.memRead 0xFFE = 1 ∧ t.memRead 0xFFF = 2 ∧ t.memRead 0 = 3 ∧ t.i = 0x0FFE) = true := by decide
theorem test_storeRegs : stepOn { withRegs [(0, 0xAA), (1, 0xBB)] with i := 0x0FFF } 0xF155
    (fun t => t.memRead 0xFFF = 0xAA ∧ t.memRead 0 = 0xBB ∧ t.memRead 1 = 0x90) = true := by decide
theorem test_loadRegs_glyph : stepOn (withRegs [(5, 0x77)]) 0xF465
    (fun t => t.getV 0 = 0xF0 ∧ t.getV 1 = 0x90 ∧ t.getV 4 = 0xF0 ∧ t.getV 5 = 0x77) = true := by decide
theorem test_tick : eventOn { State.reset with st := 5 } .tick (fun t => t.dt = 0 ∧ t.st = 4 ∧ t.tone) = true := by decide
theorem test_load : eventOn (State.reset.memWriteBytes 0x202 [0x77]) (.load [0x60, 0x0A])
    (fun t => t.memRead 0x200 = 0x60 ∧ t.memRead 0x201 = 0x0A ∧ t.memRead 0x202 = 0x77) = true := by decide
theorem test_reset_font_end : State.reset.memRead 0x04F = 0x80 ∧ State.reset.memRead 0x050 = 0 := by decide
theorem test_reset_event : eventOn { State.reset with status := .faulted, cause := .stackOverflow, sp := 15 } .reset
    (fun t => t = State.reset) = true := by decide
theorem test_withFetchWord : (step (State.reset.withFetchWord 16 0x600A)) = exec (.ldImm 0 0x0A)
    (State.reset.withFetchWord 16 0x600A).sampleFree := by rfl

/-! ### Witnesses: states and operands that meet the hypotheses of each statement -/

theorem witness_ResetEventFromAnyState : { State.reset with status := .faulted, schedule := [.reset] }.schedule =
    .reset :: [] := rfl
theorem witness_LoadCopiesOrRefuses_longest : State.reset.mem.wf = true ∧
    { State.reset with schedule := [.load (List.replicate 3584 1)] }.schedule = .load (List.replicate 3584 1) :: [] ∧
    (List.replicate 3584 (1 : Byte)).length ≤ 3584 := ⟨rfl, rfl, by rw [List.length_replicate]⟩
theorem witness_LoadCopiesOrRefuses_too_long : State.reset.mem.wf = true ∧
    { State.reset with schedule := [.load (List.replicate 3585 1)] }.schedule = .load (List.replicate 3585 1) :: [] ∧
    (List.replicate 3585 (1 : Byte)).length > 3584 :=
  ⟨rfl, rfl, by rw [List.length_replicate]; decide⟩
theorem witness_TickCountsDown : { State.reset with dt := 0, st := 1, schedule := [.tick, .tick] }.schedule =
    .tick :: [.tick] := rfl
theorem witness_KeyEventEndsWait : let s : State := { State.reset with status := .waiting, schedule := [.keyEvent 15] }
    s.schedule = .keyEvent 15 :: [] ∧ s.status = .waiting := ⟨rfl, rfl⟩
theorem witness_KeyEventEndsWait_running : let s : State := { State.reset with schedule := [.keyEvent 0] }
    s.schedule = .keyEvent 0 :: [] ∧ s.status ≠ .waiting := by decide
theorem witness_RedrawAckClears : { State.reset with schedule := [.redrawAck] }.schedule = .redrawAck :: [] := rfl
theorem witness_StepIneffectiveUnlessRunning : let s : State := { State.reset with status := .faulted }
    s.status ≠ .running ∧ s.schedule = [] := by decide
theorem witness_StepIneffectiveUnlessRunning_scheduled :
    let s : State := { State.reset with status := .waiting, schedule := [.step 0xFFFF 0] }
    s.status ≠ .running ∧ s.schedule = .step 0xFFFF 0 :: [] := by decide
theorem witness_StepRunsDecodedInstruction : let s := State.reset.withOpcode 0x600A
    s.status = .running ∧ decodeWord (s.memRead s.pc.toNat ++ s.memRead (s.pc.toNat + 1)) = .ok (.ldImm 0 0x0A) ∧
    s.schedule = [] := by decide
theorem witness_StepRunsDecodedInstruction_scheduled :
    let s : State := { State.reset.withOpcode 0xE09E with schedule := [.step 1 0, .tick] }
    s.status = .running ∧ decodeWord (s.memRead s.pc.toNat ++ s.memRead (s.pc.toNat + 1)) = .ok (.skp 0) ∧
    s.schedule = .step 1 0 :: [.tick] := by decide
theorem witness_UnknownOpcodeOnlyAdvancesPc :
    let s : State := { State.reset.withOpcode 0x5121 with schedule := [.step 0 0] }
    s.status = .running ∧ s.memRead s.pc.toNat ++ s.memRead (s.pc.toNat + 1) = (0x5121 : Word) ∧
    (∀ i, decodeWord 0x5121 ≠ .ok i) ∧ s.schedule = .step 0 0 :: [] := by
  refine ⟨by decide, by decide, fun i h => ?_, by decide⟩
  rw [show decodeWord 0x5121 = .error (.unknownOpcode 0x5121) by decide] at h
  cases h
/-- R36: 1 during a Step on an unknown word, 0 when the next event of the same state is a Tick or a Reset. -/
theorem test_unknown_opcode_strobe : let s := State.reset.withOpcode 0x5121
    ({ s with schedule := [.step 0 0] } : State).unknownOpcodeOut = true ∧ s.unknownOpcodeOut = true ∧
    ({ s with schedule := [.tick, .step 0 0] } : State).unknownOpcodeOut = false ∧
    ({ s with schedule := [.reset] } : State).unknownOpcodeOut = false ∧
    ({ s with status := .waiting } : State).unknownOpcodeOut = false := by decide
/-- R36, R191: 1 for a Load of 3585 bytes, 0 for one of 3584 and during any other event. -/
theorem test_load_error_strobe :
    ({ State.reset with schedule := [.load (List.replicate 3585 0)] } : State).loadErrorOut = true ∧
    ({ State.reset with schedule := [.load (List.replicate 3584 0)] } : State).loadErrorOut = false ∧
    ({ State.reset with schedule := [.tick] } : State).loadErrorOut = false := by
  refine ⟨?_, ?_, by decide⟩ <;>
    simp only [State.loadErrorOut, State.nextEvent, loadError, programWellFormed, List.length_replicate] <;> decide
theorem witness_DecodeEncodeRoundTrip : (Instr.shr 15 15).wellFormed = true := by decide
theorem witness_EncodeDecodeRoundTrip : decodeWord 0xDFFF = .ok (.drw 15 15 15) := by decide
theorem witness_DecoderFollowsOpcodeTable : decodeWord 0x81F6 = .ok (.shr 1 15) ∧
    (0x81F6 : Word) &&& (opcodeRow (.shr 0 0)).1 = (opcodeRow (.shr 0 0)).2 := by decide
theorem witness_HaltChangesNothing : let s := State.reset
    s.status = .running ∧ s.schedule = [] ∧ s.memRead s.pc.toNat = 0 ∧ s.memRead (s.pc.toNat + 1) = 0 := by decide
theorem witness_RetPopsReturnAddress : let s : State := { State.reset with sp := 15 }
    1 ≤ s.sp.toNat ∧ s.sp.toNat ≤ 15 := by decide
theorem witness_RetUnderflowFaults : State.reset.sp = 0 := rfl
theorem witness_RetAboveStackStops : ({ State.reset with sp := 16 } : State).sp.toNat > 15 := by decide
theorem witness_CallPushesReturnAddress : ({ State.reset with sp := 14 } : State).sp.toNat < 15 := by decide
theorem witness_CallOverflowFaults : ({ State.reset with sp := 15 } : State).sp.toNat ≥ 15 := by decide
theorem witness_flags_not_in_vf : (14 : RegNum) ≠ 15 := by decide
theorem witness_DrwDrawsSprite : let s : State := { State.reset with fb := Framebuffer.clear.flip 0 }
    SpriteCovers s 0 0 1 0 ∧ s.pixel 0 = true ∧ ¬SpriteCovers s 0 0 0 0 := by
  refine ⟨⟨0, by decide, 0, by decide, by decide, by decide⟩, by decide, ?_⟩
  rintro ⟨row, h, -⟩
  exact absurd h (by simp)
theorem witness_memory_in_form : (State.reset.memWriteBytes 0xFFF [1, 2]).mem.wf = true := by decide
theorem witness_EveryEventKeepsInvariant : State.Inv { State.reset with schedule := [.tick] } ∧
    ∃ t, step { State.reset with schedule := [.tick] } = .next t :=
  ⟨⟨by decide, by decide, by decide, by decide⟩, _, rfl⟩
theorem witness_LegalStatesNeverStop : State.Inv { State.reset with sp := 15 } :=
  ⟨by decide, by decide, by decide, by decide⟩
theorem witness_FaultedUntilReset :
    let s : State := { State.reset with status := .faulted, cause := .stackOverflow, schedule := [.tick, .load [1], .keyEvent 3] }
    s.status = .faulted ∧ ∀ e ∈ s.schedule, e ≠ .reset := by decide
theorem witness_WaitEndsByKeyOrReset : let s : State := { State.reset with status := .waiting, schedule := [.tick] }
    s.status = .waiting ∧ ∃ t, step s = .next t := ⟨rfl, _, rfl⟩
theorem witness_OnlyCallAndRetFault : State.reset.status = .running ∧
    exec .ret State.reset = .next (State.reset.enterFault .stackUnderflow) ∧
    (State.reset.enterFault .stackUnderflow).status = .faulted := ⟨rfl, rfl, rfl⟩
theorem witness_OnlyCallAndRetFault_call : let s : State := { State.reset with sp := 15 }
    exec (.call 0x200) s = .next (s.enterFault .stackOverflow) ∧ (s.enterFault .stackOverflow).status = .faulted :=
  ⟨rfl, rfl⟩
theorem witness_InstructionsWriteOnlyListedState : ∃ t, exec (.loadRegs 15) State.reset = .next t := ⟨_, rfl⟩
theorem witness_PcAdvancesByTwo : setsPc (.seImm 0 0) = false ∧
    exec (.seImm 0 0) State.reset = .next (State.reset.advancePc.skipIf true) := ⟨rfl, rfl⟩
theorem witness_RedrawAndSoundNeverInfluence : ∃ t, Host.Core.run Sys2Proof.core 1
    { State.reset with schedule := [.step 0 0] } = .next t := ⟨_, rfl⟩
theorem witness_DrawTwiceRestoresScreen : ∃ t, exec (.drw 0 1 5) State.reset = .next t ∧
    t.getV 0 = State.reset.getV 0 ∧ t.getV 1 = State.reset.getV 1 := ⟨_, rfl, by decide, by decide⟩
theorem witness_StoreThenLoadRestores : State.reset.mem.wf = true ∧
    ∃ t, exec (.storeRegs 15) State.reset = .next t := ⟨rfl, _, rfl⟩
theorem witness_StoreSeenByNextFetch : let s : State := { withRegs [(0, 0x6A), (1, 0x55)] with i := 0x202 }
    s.mem.wf = true ∧ s.status = .running ∧ s.schedule = [] ∧ 1 ≤ (1 : RegNum).val ∧ s.i = s.pc + 2 ∧
    (∃ t, exec (.storeRegs 1) s = .next t) ∧ decodeWord (s.getV 0 ++ s.getV 1) = .ok (.ldImm 10 0x55) :=
  ⟨by decide, by decide, by decide, by decide, by decide, ⟨_, rfl⟩, by decide⟩

end Sys2Proof.Tests
end

section
/-! PROOFS. RET, CALL and KeyEvent by cases, and the frames: which V registers and which parts each operation, and so
each instruction, may write (O52). -/

namespace Sys2Proof.Machine

/-! ### The frame relation -/

/-- A state changes nothing from itself. -/
theorem OnlyChanges.refl (s : State) (regs : List RegNum) (parts : List Part) : OnlyChanges s s regs parts := by
  refine ⟨fun _ _ => rfl, fun p _ => ?_⟩
  cases p <;> simp [Part.same]

theorem Part.same_trans {p : Part} {s t u : State} (hst : p.same s t) (htu : p.same t u) : p.same s u := by
  cases p <;> simp_all [Part.same]

/-- What two changes in a row leave alone is what neither of them may write. -/
theorem OnlyChanges.trans {s t u : State} {regs regs' : List RegNum} {parts parts' : List Part}
    (hst : OnlyChanges s t regs parts) (htu : OnlyChanges t u regs' parts') :
    OnlyChanges s u (regs ++ regs') (parts ++ parts') := by
  obtain ⟨hregs, hparts⟩ := hst
  obtain ⟨hregs', hparts'⟩ := htu
  refine ⟨fun r hr => ?_, fun p hp => ?_⟩
  · rw [List.mem_append, not_or] at hr
    exact (hregs' r hr.2).trans (hregs r hr.1)
  · rw [List.mem_append, not_or] at hp
    exact Part.same_trans (hparts p hp.1) (hparts' p hp.2)

/-- A frame may be widened. -/
theorem OnlyChanges.mono {s t : State} {regs regs' : List RegNum} {parts parts' : List Part}
    (h : OnlyChanges s t regs parts) (hregs : regs ⊆ regs') (hparts : parts ⊆ parts') :
    OnlyChanges s t regs' parts' :=
  ⟨fun r hr => h.1 r fun hr' => hr (hregs hr'), fun p hp => h.2 p fun hp' => hp (hparts hp')⟩

/-! ### One frame per operation -/

theorem onlyChanges_setPc (s : State) (w : Word) : OnlyChanges s (s.setPc w) [] [.pc] := by
  refine ⟨fun r _ => by simp, fun p hp => ?_⟩
  cases p <;> simp_all [Part.same]

theorem onlyChanges_advancePc (s : State) : OnlyChanges s s.advancePc [] [.pc] := onlyChanges_setPc s _

theorem onlyChanges_setI (s : State) (w : Word) : OnlyChanges s (s.setI w) [] [.i] := by
  refine ⟨fun r _ => by simp, fun p hp => ?_⟩
  cases p <;> simp_all [Part.same]

theorem onlyChanges_setDt (s : State) (b : Byte) : OnlyChanges s (s.setDt b) [] [.dt] := by
  refine ⟨fun r _ => by simp, fun p hp => ?_⟩
  cases p <;> simp_all [Part.same]

theorem onlyChanges_setSt (s : State) (b : Byte) : OnlyChanges s (s.setSt b) [] [.st] := by
  refine ⟨fun r _ => by simp, fun p hp => ?_⟩
  cases p <;> simp_all [Part.same]

theorem onlyChanges_memWriteBytes (s : State) (a : Nat) (bs : List Byte) :
    OnlyChanges s (s.memWriteBytes a bs) [] [.mem] := by
  refine ⟨fun r _ => by simp, fun p hp => ?_⟩
  cases p <;> simp_all [Part.same]

theorem onlyChanges_push (s : State) (w : Word) : OnlyChanges s (s.push w) [] [.sp, .stack] := by
  refine ⟨fun r _ => by simp, fun p hp => ?_⟩
  cases p <;> simp_all [Part.same]

theorem onlyChanges_dropTop (s : State) : OnlyChanges s s.dropTop [] [.sp] := by
  refine ⟨fun r _ => by simp, fun p hp => ?_⟩
  cases p <;> simp_all [Part.same]

theorem onlyChanges_showFb (s : State) (fb : Framebuffer) : OnlyChanges s (s.showFb fb) [] [.fb, .redraw] := by
  refine ⟨fun r _ => by simp, fun p hp => ?_⟩
  cases p <;> simp_all [Part.same]

theorem onlyChanges_loadRegs (s : State) (a : Nat) (x : RegNum) :
    OnlyChanges s (s.loadRegs a x) (instrWritesV (.loadRegs x)) [] := by
  refine ⟨fun r hr => ?_, fun p _ => ?_⟩
  · have hr : ¬ r.val ≤ x.val := by simpa [instrWritesV] using hr
    simp [hr]
  · cases p <;> simp [Part.same]

/-- A register write by itself; `onlyChanges_setV` speaks of the write after PC's advance. -/
theorem onlyChanges_writeV (s : State) (x : RegNum) (b : Byte) : OnlyChanges s (s.setV x b) [x] [] := by
  refine ⟨fun r hr => ?_, fun p _ => ?_⟩
  · have hr : r ≠ x := by simpa using hr
    simp [hr]
  · cases p <;> simp [Part.same]

theorem onlyChanges_withSchedule (s : State) (rest : List Event) :
    OnlyChanges s { s with schedule := rest } [] [.schedule] := by
  refine ⟨fun r _ => rfl, fun p hp => ?_⟩
  cases p <;> simp_all [Part.same, State.stackAt, State.memRead, State.pixel]

theorem onlyChanges_onRedrawAck (s : State) : OnlyChanges s s.onRedrawAck [] [.redraw] := by
  refine ⟨fun r _ => by simp, fun p hp => ?_⟩
  cases p <;> simp_all [Part.same]

/-! ### RET and CALL by cases -/

/-- RET on an empty stack faults (R162). -/
theorem execRet_empty {s : State} (h : s.sp = 0) : execRet s = .next (s.enterFault .stackUnderflow) :=
  if_pos h

/-- RET with a stack entry at SP goes to it and pops it (R83). -/
theorem execRet_entry {s : State} {w : Word} (hsp : s.sp ≠ 0) (hw : s.stackAt s.sp.toNat = some w) :
    execRet s = .next (s.dropTop.setPc w) := by
  simp only [execRet, if_neg hsp, hw]

/-- RET with no stack entry at SP stops (assumption log 5). -/
theorem execRet_no_entry {s : State} (hsp : s.sp ≠ 0) (hw : s.stackAt s.sp.toNat = none) :
    execRet s = .fault .stackIndexOutOfRange := by
  simp only [execRet, if_neg hsp, hw]

/-- What a RET that completes can do. -/
theorem execRet_cases {s t : State} (h : execRet s = .next t) :
    (s.sp = 0 ∧ t = s.enterFault .stackUnderflow) ∨
    ∃ w, s.sp ≠ 0 ∧ s.stackAt s.sp.toNat = some w ∧ t = s.dropTop.setPc w := by
  by_cases hsp : s.sp = 0
  · rw [execRet_empty hsp] at h
    cases h
    exact .inl ⟨hsp, rfl⟩
  · cases hw : s.stackAt s.sp.toNat with
    | none => rw [execRet_no_entry hsp hw] at h; cases h
    | some w =>
      rw [execRet_entry hsp hw] at h
      cases h
      exact .inr ⟨w, hsp, rfl, rfl⟩

/-- CALL on a full stack faults (R161). -/
theorem execCall_full {nnn : Addr} {s : State} (h : s.sp.toNat ≥ Config.stackMaxDepth) :
    execCall nnn s = .next (s.enterFault .stackOverflow) :=
  if_pos h

/-- CALL on a stack with room pushes the advanced PC and goes to nnn (R85). -/
theorem execCall_room {nnn : Addr} {s : State} (h : s.sp.toNat < Config.stackMaxDepth) :
    execCall nnn s = .next ((s.advancePc.push s.advancePc.pc).setPc (zextAddr nnn)) :=
  if_neg (Nat.not_le.2 h)

/-- What a CALL can do. -/
theorem execCall_cases {nnn : Addr} {s t : State} (h : execCall nnn s = .next t) :
    (s.sp.toNat ≥ Config.stackMaxDepth ∧ t = s.enterFault .stackOverflow) ∨
    (s.sp.toNat < Config.stackMaxDepth ∧ t = (s.advancePc.push s.advancePc.pc).setPc (zextAddr nnn)) := by
  rcases Nat.lt_or_ge s.sp.toNat Config.stackMaxDepth with hsp | hsp
  · rw [execCall_room hsp] at h
    cases h
    exact .inr ⟨hsp, rfl⟩
  · rw [execCall_full hsp] at h
    cases h
    exact .inl ⟨hsp, rfl⟩

/-! ### KeyEvent by cases -/

/-- A KeyEvent ends a wait (R134). -/
theorem State.onKeyEvent_waiting {s : State} (h : s.status = .waiting) (k : KeyCode) :
    s.onKeyEvent k = { s.setV s.wx (keyByte k) with status := .running } := by
  simp only [State.onKeyEvent, h]

/-- With no wait, a KeyEvent does nothing (R134). -/
theorem State.onKeyEvent_not_waiting {s : State} (h : s.status ≠ .waiting) (k : KeyCode) : s.onKeyEvent k = s := by
  cases hstatus : s.status with
  | waiting => exact absurd hstatus h
  | running | faulted => simp only [State.onKeyEvent, hstatus]

/-! ### The frame of each instruction (R26) -/

theorem execRet_onlyChanges {s t : State} (h : execRet s = .next t) :
    OnlyChanges s t [] [.pc, .sp, .status, .cause] := by
  obtain ⟨-, rfl⟩ | ⟨w, -, -, rfl⟩ := execRet_cases h
  · exact (onlyChanges_enterFault s _).mono (by simp) (by simp)
  · exact ((onlyChanges_dropTop s).trans (onlyChanges_setPc _ w)).mono (by simp) (by simp)

theorem execCall_onlyChanges {nnn : Addr} {s t : State} (h : execCall nnn s = .next t) :
    OnlyChanges s t [] [.pc, .sp, .stack, .status, .cause] := by
  obtain ⟨-, rfl⟩ | ⟨-, rfl⟩ := execCall_cases h
  · exact (onlyChanges_enterFault s _).mono (by simp) (by simp)
  · have hpush := (onlyChanges_advancePc s).trans (onlyChanges_push _ s.advancePc.pc)
    exact (hpush.trans (onlyChanges_setPc _ (zextAddr nnn))).mono (by simp) (by simp)

/-- An instruction writes only the state R26's table lists for it. -/
theorem exec_onlyChanges {i : Instr} {s t : State} (h : exec i s = .next t) :
    OnlyChanges s t (instrWritesV i) (instrWritesParts i) := by
  have hpc := onlyChanges_advancePc s
  cases i with
  | ret => exact execRet_onlyChanges h
  | call nnn => exact execCall_onlyChanges h
  | halt => cases h; exact .refl s _ _
  | cls => cases h; exact hpc.trans (onlyChanges_showFb _ _)
  | jp nnn | jpV0 nnn => cases h; exact (hpc.trans (onlyChanges_setPc _ _)).mono (by simp) (by simp [instrWritesParts])
  | seImm x kk | sneImm x kk | seReg x y | sneReg x y | skp x | sknp x => cases h; exact onlyChanges_skipIf s _
  | ldImm x kk | addImm x kk | rnd x kk | ldReg x y | orReg x y | andReg x y | xorReg x y | ldVxDt x =>
    cases h; exact onlyChanges_setV s x _
  | addReg x y | subReg x y | shr x y | subnReg x y | shl x y =>
    cases h; exact onlyChanges_setFlagThenResult s x _ _
  | ldI nnn | addI x | ldF x => cases h; exact hpc.trans (onlyChanges_setI _ _)
  | drw x y n => cases h; exact (hpc.trans (onlyChanges_showFb _ _)).trans (onlyChanges_writeV _ _ _)
  | ldVxK x => cases h; exact hpc.trans (onlyChanges_enterWait _ x)
  | ldDtVx x => cases h; exact hpc.trans (onlyChanges_setDt _ _)
  | ldStVx x => cases h; exact hpc.trans (onlyChanges_setSt _ _)
  | ldB x | storeRegs x => cases h; exact hpc.trans (onlyChanges_memWriteBytes _ _ _)
  | loadRegs x => cases h; exact hpc.trans (onlyChanges_loadRegs _ _ x)

/-- Settles O52, by the frames of the operations an instruction is made of. -/
theorem instructionsWriteOnlyListedState : Obligations.InstructionsWriteOnlyListedState :=
  fun _ _ _ h => exec_onlyChanges h

end Sys2Proof.Machine
end

section
/-! PROOFS. The invariant of R38 after Reset and after every event (O46, O47). -/

namespace Sys2Proof.Machine

/-! ### The memory's canonical form -/

/-- The memory's canonical form is kept by every instruction: only Fx33 and Fx55 store, byte by byte. -/
theorem exec_mem_wf {i : Instr} {s t : State} (hwf : s.mem.wf = true) (h : exec i s = .next t) :
    t.mem.wf = true := by
  cases i with
  | ldB x | storeRegs x => cases h; exact Memory.wf_writeBytes hwf _ _
  | ret => obtain ⟨-, rfl⟩ | ⟨w, -, -, rfl⟩ := execRet_cases h <;> exact hwf
  | call nnn => obtain ⟨-, rfl⟩ | ⟨-, rfl⟩ := execCall_cases h <;> exact hwf
  | seImm x kk | sneImm x kk | seReg x y | sneReg x y | skp x | sknp x => cases h; simpa using hwf
  | _ => cases h; exact hwf

/-! ### The invariant, operation by operation -/

/-- The parts the invariant speaks of, but for the memory. -/
abbrev controlParts : List Part := [.sp, .stack, .status, .cause]

/-- A change that leaves SP, the stack, STATUS and CAUSE alone keeps the invariant, the memory being in form. -/
theorem State.Inv.of_onlyChanges {s t : State} {regs : List RegNum} {parts : List Part} (hs : s.Inv)
    (h : OnlyChanges s t regs parts) (hparts : ∀ p ∈ controlParts, p ∉ parts) (hmem : t.mem.wf = true) : t.Inv :=
  hs.of_same (h.2 .sp (hparts _ (by simp))) (h.2 .stack (hparts _ (by simp)))
    (h.2 .status (hparts _ (by simp))) (h.2 .cause (hparts _ (by simp))) hmem

/-- Outside FAULTED, CAUSE is none. -/
theorem State.Inv.cause_eq_none {s : State} (hs : s.Inv) (h : s.status ≠ .faulted) : s.cause = .none :=
  not_not.1 fun hc => h (hs.causeIffFaulted.1 hc)

/-- The fault entry keeps the invariant: it sets CAUSE and FAULTED together (R163). -/
theorem State.Inv.enterFault {s : State} (hs : s.Inv) {c : Cause} (hc : c ≠ .none) : (s.enterFault c).Inv where
  spLegal := hs.spLegal
  causeIffFaulted := by simp [hc]
  bottomZero := hs.bottomZero
  memWf := hs.memWf

/-- The entry into the wait for a key keeps the invariant, unless the engine is FAULTED. -/
theorem State.Inv.enterWait {s : State} (hs : s.Inv) (h : s.status ≠ .faulted) (x : RegNum) :
    (s.enterWait x).Inv where
  spLegal := hs.spLegal
  causeIffFaulted := by simp [hs.cause_eq_none h]
  bottomZero := hs.bottomZero
  memWf := hs.memWf

/-- A push on a stack with room keeps the invariant: it writes S[SP + 1], never S[0] (R15). -/
theorem State.Inv.push {s : State} (hs : s.Inv) (h : s.sp.toNat < Config.stackMaxDepth) (w : Word) :
    (s.push w).Inv := by
  have hsp := s.push_sp_toNat w h
  refine ⟨by omega, by simpa using hs.causeIffFaulted, ?_, by simpa using hs.memWf⟩
  rw [State.stackAt_push, if_neg, hs.bottomZero]
  rw [State.push_sp] at hsp
  omega

/-- RET's pop of a stack that is not empty keeps the invariant. -/
theorem State.Inv.dropTop {s : State} (hs : s.Inv) (h : s.sp ≠ 0) : s.dropTop.Inv where
  spLegal := by
    have hlegal := hs.spLegal
    simp only [State.dropTop_sp, Config.stackMaxDepth] at hlegal ⊢
    bv_omega
  causeIffFaulted := hs.causeIffFaulted
  bottomZero := hs.bottomZero
  memWf := hs.memWf

/-- An assignment to PC keeps the invariant. -/
theorem State.Inv.setPc {s : State} (hs : s.Inv) (w : Word) : (s.setPc w).Inv :=
  hs.of_onlyChanges (onlyChanges_setPc s w) (by simp) hs.memWf

theorem State.Inv.advancePc {s : State} (hs : s.Inv) : s.advancePc.Inv := hs.setPc _

/-- What the host does around a Step, taking events off the schedule and sampling the inputs, keeps the invariant. -/
theorem State.Inv.withSchedule {s : State} (hs : s.Inv) (rest : List Event) :
    State.Inv { s with schedule := rest } :=
  hs.of_same rfl (fun _ => rfl) rfl rfl hs.memWf

theorem State.Inv.withInputs {s : State} (hs : s.Inv) (keys : KeyLevels) (rnd : Byte) :
    (s.withInputs keys rnd).Inv :=
  hs.of_same rfl (fun _ => rfl) rfl rfl hs.memWf

theorem State.Inv.sampleFree {s : State} (hs : s.Inv) : s.sampleFree.Inv :=
  hs.of_onlyChanges (onlyChanges_sampleFree s) (by simp) hs.memWf

/-! ### The invariant, instruction by instruction -/

theorem execRet_inv {s t : State} (hs : s.Inv) (h : execRet s = .next t) : t.Inv := by
  obtain ⟨-, rfl⟩ | ⟨w, hsp, -, rfl⟩ := execRet_cases h
  · exact hs.enterFault (by decide)
  · exact (hs.dropTop hsp).setPc w

theorem execCall_inv {nnn : Addr} {s t : State} (hs : s.Inv) (h : execCall nnn s = .next t) : t.Inv := by
  obtain ⟨-, rfl⟩ | ⟨hsp, rfl⟩ := execCall_cases h
  · exact hs.enterFault (by decide)
  · exact (hs.advancePc.push hsp _).setPc _

/-- Every instruction, run outside FAULTED, keeps the invariant: three of them write control state, the frame of R26
speaks for the others. -/
theorem exec_inv {i : Instr} {s t : State} (hs : s.Inv) (hrun : s.status ≠ .faulted) (h : exec i s = .next t) :
    t.Inv := by
  have hframe := exec_onlyChanges h
  have hmem := exec_mem_wf hs.memWf h
  cases i with
  | ret => exact execRet_inv hs h
  | call nnn => exact execCall_inv hs h
  | ldVxK x => cases h; exact hs.advancePc.enterWait hrun x
  | _ => exact hs.of_onlyChanges hframe (by simp [instrWritesParts]) hmem

/-! ### The invariant, event by event (R169) -/

/-- A Step keeps the invariant, when the state it samples meets it too. -/
theorem onStep_inv {s t : State} (u : State) (hs : s.Inv) (hu : u.Inv) (hstatus : u.status = s.status)
    (h : s.onStep u = .next t) : t.Inv := by
  by_cases hrun : s.status = .running
  · rw [State.onStep_running u hrun] at h
    cases hop : decodeWord u.fetchWord with
    | ok i =>
      rw [State.runInstruction_ok hop] at h
      exact exec_inv hu (by simp [hstatus, hrun]) h
    | error e =>
      rw [State.runInstruction_error hop] at h
      cases h
      exact hu.advancePc
  · rw [State.onStep_not_running u hrun] at h
    cases h
    exact hs

/-- The state after Reset meets the invariant. -/
theorem State.reset_inv : State.reset.Inv := ⟨by decide, by decide, by decide, rfl⟩

theorem State.onReset_inv (s : State) : s.onReset.Inv :=
  State.reset_inv.of_same rfl (fun _ => rfl) rfl rfl rfl

theorem State.Inv.onLoad {s : State} (hs : s.Inv) (bytes : List Byte) : (s.onLoad bytes).Inv := by
  unfold State.onLoad
  split
  · exact hs
  · exact hs.memWriteBytes _ _

theorem State.Inv.onTick {s : State} (hs : s.Inv) : s.onTick.Inv :=
  hs.of_same rfl (fun _ => rfl) rfl rfl hs.memWf

theorem State.Inv.onRedrawAck {s : State} (hs : s.Inv) : s.onRedrawAck.Inv :=
  hs.of_same rfl (fun _ => rfl) rfl rfl hs.memWf

/-- A KeyEvent keeps the invariant: a wait ends in RUNNING, and CAUSE was none. -/
theorem State.Inv.onKeyEvent {s : State} (hs : s.Inv) (k : KeyCode) : (s.onKeyEvent k).Inv := by
  by_cases hwait : s.status = .waiting
  · have hcause : s.cause = .none := hs.cause_eq_none (by simp [hwait])
    rw [State.onKeyEvent_waiting hwait]
    exact ⟨hs.spLegal, by simp [hcause], hs.bottomZero, hs.memWf⟩
  · rwa [State.onKeyEvent_not_waiting hwait]

/-- Every event keeps the invariant. -/
theorem takeEvent_inv {s t : State} {e : Event} (hs : s.Inv) (h : s.takeEvent e = .next t) : t.Inv := by
  cases e with
  | reset => cases h; exact s.onReset_inv
  | load bytes => cases h; exact hs.onLoad bytes
  | step keys rnd => exact onStep_inv (s.withInputs keys rnd) hs (hs.withInputs keys rnd) rfl h
  | tick => cases h; exact hs.onTick
  | keyEvent k => cases h; exact hs.onKeyEvent k
  | redrawAck => cases h; exact hs.onRedrawAck

/-- The machine's step keeps the invariant, whether the schedule gives the event or is used up. -/
theorem step_inv {s t : State} (hs : s.Inv) (h : step s = .next t) : t.Inv := by
  cases hsch : s.schedule with
  | nil =>
    rw [step_of_nil hsch] at h
    exact onStep_inv s.sampleFree hs hs.sampleFree rfl h
  | cons e rest =>
    rw [step_of_cons hsch] at h
    exact takeEvent_inv (hs.withSchedule rest) h

/-- Settles O46, field by field. -/
theorem invariantAfterReset : Obligations.InvariantAfterReset := State.reset_inv

/-- Settles O47, by cases on the event; a Step by the frame of its instruction. -/
theorem everyEventKeepsInvariant : Obligations.EveryEventKeepsInvariant :=
  fun _ _ hs h => step_inv hs h

end Sys2Proof.Machine
end

section
/-! PROOFS. REDRAW and ST influence no other part of the state (O54): a run on the state with the two blanked is, but
for the two, the run on the state itself. -/

namespace Sys2Proof.Machine

/-- `s` with the two parts no instruction reads, REDRAW and ST, at fixed values. -/
def State.blank (s : State) : State := { s with redraw := false, st := 0 }

/-- An answer, with REDRAW and ST of its state blanked. -/
def blankResult : Result → Result
  | .next s => .next s.blank
  | .fault r => .fault r
  | .refused r => .refused r

/-- Two states with the same blank differ in REDRAW and ST at most. -/
theorem State.eq_of_blank_eq {t u : State} (h : u.blank = t.blank) :
    u = { t with redraw := u.redraw, st := u.st } := by
  cases t
  cases u
  simp_all [State.blank]

/-- An answer whose blank is that of `.next t` is a next state with `t`'s blank. -/
theorem eq_next_of_blankResult_eq {r : Result} {t : State} (h : blankResult r = blankResult (.next t)) :
    ∃ u, r = .next u ∧ u.blank = t.blank := by
  cases r with
  | next u => exact ⟨u, rfl, by simpa [blankResult] using h⟩
  | fault f => cases h
  | refused f => cases h

/-! ### The instructions

An instruction built of operations that are the same on the blanked state and on the state itself needs no argument;
the skips, RET and CALL branch on what they read, which is not REDRAW or ST. -/

theorem skip_blank (s : State) (taken : Bool) :
    blankResult (.next (s.blank.advancePc.skipIf taken)) = blankResult (.next (s.advancePc.skipIf taken)) := by
  cases taken <;> rfl

theorem execRet_blank (s : State) : blankResult (execRet s.blank) = blankResult (execRet s) := by
  by_cases hsp : s.sp = 0
  · rw [execRet_empty hsp, execRet_empty (s := s.blank) hsp]
    rfl
  · cases hw : s.stackAt s.sp.toNat with
    | none => rw [execRet_no_entry hsp hw, execRet_no_entry (s := s.blank) hsp hw]
    | some w =>
      rw [execRet_entry hsp hw, execRet_entry (s := s.blank) hsp hw]
      rfl

theorem execCall_blank (nnn : Addr) (s : State) :
    blankResult (execCall nnn s.blank) = blankResult (execCall nnn s) := by
  rcases Nat.lt_or_ge s.sp.toNat Config.stackMaxDepth with hsp | hsp
  · rw [execCall_room hsp, execCall_room (s := s.blank) hsp]
    rfl
  · rw [execCall_full hsp, execCall_full (s := s.blank) hsp]
    rfl

/-- No instruction reads REDRAW or ST (R17, R20). -/
theorem exec_blank (i : Instr) (s : State) : blankResult (exec i s.blank) = blankResult (exec i s) := by
  cases i with
  | ret => exact execRet_blank s
  | call nnn => exact execCall_blank nnn s
  | seImm x kk | sneImm x kk | seReg x y | sneReg x y | skp x | sknp x => exact skip_blank s _
  | _ => rfl

/-! ### The events -/

theorem onStep_blank (s u : State) : blankResult (s.blank.onStep u.blank) = blankResult (s.onStep u) := by
  by_cases hrun : s.status = .running
  · rw [State.onStep_running u hrun, State.onStep_running (s := s.blank) u.blank hrun]
    cases hop : decodeWord u.fetchWord with
    | ok i =>
      rw [State.runInstruction_ok hop, State.runInstruction_ok (s := u.blank) hop]
      exact exec_blank i u
    | error e =>
      rw [State.runInstruction_error hop, State.runInstruction_error (s := u.blank) hop]
      rfl
  · rw [State.onStep_not_running u hrun, State.onStep_not_running (s := s.blank) u.blank hrun]
    rfl

theorem onLoad_blank (s : State) (bytes : List Byte) : (s.blank.onLoad bytes).blank = (s.onLoad bytes).blank := by
  unfold State.onLoad
  split <;> rfl

theorem onKeyEvent_blank (s : State) (k : KeyCode) : (s.blank.onKeyEvent k).blank = (s.onKeyEvent k).blank := by
  by_cases hwait : s.status = .waiting
  · rw [State.onKeyEvent_waiting hwait, State.onKeyEvent_waiting (s := s.blank) hwait]
    rfl
  · rw [State.onKeyEvent_not_waiting hwait, State.onKeyEvent_not_waiting (s := s.blank) hwait]
    rfl

/-- No event reads REDRAW or ST, but for the Tick, which counts ST itself down. -/
theorem takeEvent_blank (s : State) (e : Event) : blankResult (s.blank.takeEvent e) = blankResult (s.takeEvent e) := by
  cases e with
  | step keys rnd => exact onStep_blank s (s.withInputs keys rnd)
  | load bytes => exact congrArg Host.Outcome.next (onLoad_blank s bytes)
  | keyEvent k => exact congrArg Host.Outcome.next (onKeyEvent_blank s k)
  | reset | tick | redrawAck => rfl

theorem step_blank (s : State) : blankResult (step s.blank) = blankResult (step s) := by
  cases hsch : s.schedule with
  | nil =>
    rw [step_of_nil hsch, step_of_nil (s := s.blank) hsch]
    exact onStep_blank s s.sampleFree
  | cons e rest =>
    rw [step_of_cons hsch, step_of_cons (s := s.blank) hsch]
    exact takeEvent_blank { s with schedule := rest } e

/-! ### The runs -/

/-- A step from a state with the same blank gives a state with the same blank. -/
theorem step_of_blank_eq {s s' t : State} (hs : s'.blank = s.blank) (h : step s = .next t) :
    ∃ u, step s' = .next u ∧ u.blank = t.blank := by
  apply eq_next_of_blankResult_eq
  rw [← step_blank, hs, step_blank, h]

/-- A run of `n + 1` steps that reaches `t` is one step and a run of `n` that reaches it. -/
theorem core_run_succ_inv {n : Nat} {s t : State} (h : Host.Core.run Sys2Proof.core (n + 1) s = .next t) :
    ∃ s', step s = .next s' ∧ Host.Core.run Sys2Proof.core n s' = .next t := by
  cases hstep : step s with
  | next s' => exact ⟨s', rfl, (core_run_succ hstep).symm.trans h⟩
  | fault f | refused f =>
    have hcore : Host.Core.step Sys2Proof.core s = _ := hstep
    simp only [Host.Core.run, hcore] at h
    cases h

/-- A run from a state with the same blank ends in a state with the same blank. -/
theorem run_of_blank_eq {n : Nat} {s s' t : State} (hs : s'.blank = s.blank)
    (h : Host.Core.run Sys2Proof.core n s = .next t) :
    ∃ u, Host.Core.run Sys2Proof.core n s' = .next u ∧ u.blank = t.blank := by
  induction n generalizing s s' with
  | zero => cases h; exact ⟨s', rfl, hs⟩
  | succ n ih =>
    obtain ⟨s₁, hstep, hrun⟩ := core_run_succ_inv h
    obtain ⟨u₁, hstep', hs₁⟩ := step_of_blank_eq hs hstep
    rw [core_run_succ hstep']
    exact ih hs₁ hrun

/-- Settles O54, by induction on the number of steps: every step keeps two states that differ in REDRAW and ST at most
in that relation. -/
theorem redrawAndSoundNeverInfluence : Obligations.RedrawAndSoundNeverInfluence := by
  intro n s t redraw st h
  obtain ⟨u, hu, hblank⟩ := run_of_blank_eq (s := s) (s' := { s with redraw := redraw, st := st }) rfl h
  exact ⟨u.redraw, u.st, hu.trans (congrArg _ (State.eq_of_blank_eq hblank))⟩

end Sys2Proof.Machine
end

section
/-! PROOFS. Single facts of spec/10_state.md: what Reset leaves, RedrawAck, a Step outside RUNNING, RET above the
stack, and the status outputs (O1, O6, O7, O19, O58). -/

namespace Sys2Proof.Machine

/-! ### Reset (R22, R25) -/

/-- After Reset every cell below 4096 holds its reset byte. -/
theorem State.memRead_reset {a : Nat} (h : a < Config.memSize) : State.reset.memRead a = resetByte a := by
  show resetByte (a % Config.memSize) = resetByte a
  rw [Nat.mod_eq_of_lt h]

theorem fontRom_length : Config.fontRom.length = 80 := by decide

theorem resetByte_font {k : Nat} (h : k < Config.fontRom.length) : resetByte k = Config.fontRom[k] := by
  simp [resetByte, h]

theorem resetByte_above_font {a : Nat} (h : Config.fontRom.length ≤ a) : resetByte a = 0 := by
  simp [resetByte, h]

theorem State.getV_reset (r : RegNum) : State.reset.getV r = 0 := by
  simp [State.getV, State.reset]

theorem State.stackAt_reset {k : Nat} (h : k < Config.stackEntries) : State.reset.stackAt k = some 0 := by
  simp only [State.stackAt, State.reset, Vector.getElem?_replicate, if_pos h]

/-- Settles O1; the memory by the reset byte of its cells. -/
theorem resetStateValues : Obligations.ResetStateValues := by
  refine ⟨State.getV_reset, rfl, rfl, rfl, fun k hk => State.stackAt_reset hk, rfl, rfl, fun k hk => ?_,
    fun a ha ha' => ?_, Framebuffer.get_clear, rfl, rfl, rfl, rfl, rfl⟩
  · rw [State.memRead_reset (by simp only [Config.memSize]; omega)]
    exact resetByte_font hk
  · rw [State.memRead_reset ha', resetByte_above_font (fontRom_length.trans_le ha)]

/-! ### RedrawAck and the Step outside RUNNING -/

/-- Settles O6, by the frames of taking an event off the schedule and of RedrawAck. -/
theorem redrawAckClears : Obligations.RedrawAckClears := by
  intro s rest h
  refine ⟨_, step_of_cons h, rfl, rfl, ?_⟩
  exact ((onlyChanges_withSchedule s rest).trans (onlyChanges_onRedrawAck _)).mono (by simp) (by simp)

/-- Settles O7: outside RUNNING a Step event answers the state as it was. -/
theorem stepIneffectiveUnlessRunning : Obligations.StepIneffectiveUnlessRunning := by
  intro s hstatus
  constructor
  · intro h
    rw [step_of_nil h, State.onStep_not_running _ hstatus]
  · intro keys rnd rest h
    rw [step_of_cons h]
    exact State.onStep_not_running (s := { s with schedule := rest }) _ hstatus

/-! ### RET above the stack -/

/-- Settles O19: there is no stack entry above 15. -/
theorem retAboveStackStops : Obligations.RetAboveStackStops := by
  intro s h
  have hsp : s.sp ≠ 0 := fun h0 => by simp [h0] at h
  exact execRet_no_entry hsp ((State.stackAt_eq_none_iff s _).2 h)

/-! ### The outputs (R36) -/

theorem State.waitingOut_iff (s : State) : s.waitingOut = true ↔ s.status.code = 1 := by
  unfold State.waitingOut
  cases s.status <;> decide

theorem State.faultedOut_iff (s : State) : s.faultedOut = true ↔ s.status.code = 2 := by
  unfold State.faultedOut
  cases s.status <;> decide

theorem Cause.code_le_two (c : Cause) : c.code.toNat ≤ 2 := by cases c <;> decide

/-- A Load is refused exactly when it is longer than PROG_MAX (R191). -/
theorem loadError_iff (bytes : List Byte) : loadError bytes = true ↔ bytes.length > Config.progMax := by
  simp [loadError, programWellFormed]

/-- Settles O58, output by output. -/
theorem statusOutputs : Obligations.StatusOutputs := by
  intro s
  refine ⟨s.waitingOut_iff, s.faultedOut_iff, s.cause.code_le_two, ?_, ?_⟩
  · rw [State.unknownOpcodeOut_iff, State.nextEvent_step_iff, State.stepsOnUnknownOpcode_iff]
    exact and_left_comm
  · simp only [State.loadErrorOut_iff, State.nextEvent_load_iff, loadError_iff, exists_and_right]

end Sys2Proof.Machine
end

section
/-! PROOFS. What Fx55 stores is what memory reads as (R147), and a store is seen by the very next fetch
(spec/20_memory.md R52; O57). -/

namespace Sys2Proof.Machine

/-- After Fx55 the cell at I + r reads as Vr, for every stored register (R147). -/
theorem memRead_of_exec_storeRegs {s t : State} {x r : RegNum} (hwf : s.mem.wf = true)
    (h : exec (.storeRegs x) s = .next t) (hr : r ≤ x) : t.memRead (s.i.toNat + r.val) = s.getV r := by
  cases h
  have hlen := s.regsUpTo_length x
  have hrx : r.val ≤ x.val := hr
  have hstored : r.val < (s.regsUpTo x).length := by omega
  have hfits : (s.regsUpTo x).length ≤ Config.memSize := by
    rw [hlen, Config.memSize]
    omega
  exact (State.memRead_memWriteBytes_at (s := s.advancePc) hwf _ _ hfits _ hstored).trans (s.regsUpTo_get x r hstored)

/-- After Fx55 with I at the next instruction's address, the next fetch reads V0 and V1: PC is where I was (R52). -/
theorem fetchWord_of_exec_storeRegs {s t : State} {x : RegNum} (hwf : s.mem.wf = true) (hx : 1 ≤ x.val)
    (hi : s.i = s.pc + 2) (h : exec (.storeRegs x) s = .next t) : t.fetchWord = s.getV 0 ++ s.getV 1 := by
  have hpc : t.pc = s.i := by cases h; exact hi.symm
  have hhi : t.memRead t.pc.toNat = s.getV 0 := hpc ▸ memRead_of_exec_storeRegs hwf h (Fin.zero_le x)
  have hlo : t.memRead (t.pc.toNat + 1) = s.getV 1 := hpc ▸ memRead_of_exec_storeRegs (r := 1) hwf h hx
  rw [State.fetchWord, hhi, hlo, wordOfBytes]

/-- With the schedule used up, in RUNNING, on a word that decodes, the step runs its instruction with the inputs
sampled (R60). -/
theorem step_of_nil_running_ok {s : State} {i : Instr} (hsch : s.schedule = []) (hrun : s.status = .running)
    (hop : decodeWord s.fetchWord = .ok i) : step s = exec i s.sampleFree := by
  rw [step_of_nil hsch, State.onStep_running _ hrun, State.runInstruction_ok (s := s.sampleFree) hop]

/-- Settles O57: the fetch after the store reads the two stored bytes; the store leaves STATUS and the schedule as they
were. -/
theorem storeSeenByNextFetch : Obligations.StoreSeenByNextFetch := by
  intro s t x i hwf hrun hsch hx hi hstore hop
  obtain ⟨-, hkept⟩ := exec_onlyChanges hstore
  have hsch' : t.schedule = [] := (hkept .schedule (by simp [instrWritesParts])).trans hsch
  have hrun' : t.status = .running := (hkept .status (by simp [instrWritesParts])).trans hrun
  exact step_of_nil_running_ok hsch' hrun' (by rwa [fetchWord_of_exec_storeRegs hwf hx hi hstore])

end Sys2Proof.Machine
end

section
/-! PROOFS. The decoder group by group, and the two directions of the round trip with the encoder (O10, O11, O12). -/

namespace Sys2Proof

/-! ### The decoder by groups (R65) -/

section
variable {op : Word}

@[simp] theorem decodeWord_group0 (h : fieldU op = 0x0) : decodeWord op = decodeGroup0 op := by simp [decodeWord, h]

@[simp] theorem decodeWord_group1 (h : fieldU op = 0x1) : decodeWord op = .ok (.jp (fieldNNN op)) := by
  simp [decodeWord, h]

@[simp] theorem decodeWord_group2 (h : fieldU op = 0x2) : decodeWord op = .ok (.call (fieldNNN op)) := by
  simp [decodeWord, h]

@[simp] theorem decodeWord_group3 (h : fieldU op = 0x3) : decodeWord op = .ok (.seImm (fieldX op) (fieldKK op)) := by
  simp [decodeWord, h]

@[simp] theorem decodeWord_group4 (h : fieldU op = 0x4) : decodeWord op = .ok (.sneImm (fieldX op) (fieldKK op)) := by
  simp [decodeWord, h]

@[simp] theorem decodeWord_group5 (h : fieldU op = 0x5) : decodeWord op =
    if fieldN op = 0 then .ok (.seReg (fieldX op) (fieldY op)) else .error (.unknownOpcode op) := by
  simp [decodeWord, h]

@[simp] theorem decodeWord_group6 (h : fieldU op = 0x6) : decodeWord op = .ok (.ldImm (fieldX op) (fieldKK op)) := by
  simp [decodeWord, h]

@[simp] theorem decodeWord_group7 (h : fieldU op = 0x7) : decodeWord op = .ok (.addImm (fieldX op) (fieldKK op)) := by
  simp [decodeWord, h]

@[simp] theorem decodeWord_group8 (h : fieldU op = 0x8) : decodeWord op = decodeGroup8 op := by simp [decodeWord, h]

@[simp] theorem decodeWord_group9 (h : fieldU op = 0x9) : decodeWord op =
    if fieldN op = 0 then .ok (.sneReg (fieldX op) (fieldY op)) else .error (.unknownOpcode op) := by
  simp [decodeWord, h]

@[simp] theorem decodeWord_groupA (h : fieldU op = 0xA) : decodeWord op = .ok (.ldI (fieldNNN op)) := by
  simp [decodeWord, h]

@[simp] theorem decodeWord_groupB (h : fieldU op = 0xB) : decodeWord op = .ok (.jpV0 (fieldNNN op)) := by
  simp [decodeWord, h]

@[simp] theorem decodeWord_groupC (h : fieldU op = 0xC) : decodeWord op = .ok (.rnd (fieldX op) (fieldKK op)) := by
  simp [decodeWord, h]

@[simp] theorem decodeWord_groupD (h : fieldU op = 0xD) :
    decodeWord op = .ok (.drw (fieldX op) (fieldY op) (fieldN op)) := by
  simp [decodeWord, h]

@[simp] theorem decodeWord_groupE (h : fieldU op = 0xE) : decodeWord op = decodeGroupE op := by simp [decodeWord, h]

@[simp] theorem decodeWord_groupF (h : fieldU op = 0xF) : decodeWord op = decodeGroupF op := by simp [decodeWord, h]

end

theorem group_cases (u : BitVec 4) : u = 0x0 ∨ u = 0x1 ∨ u = 0x2 ∨ u = 0x3 ∨ u = 0x4 ∨ u = 0x5 ∨ u = 0x6 ∨ u = 0x7 ∨
    u = 0x8 ∨ u = 0x9 ∨ u = 0xA ∨ u = 0xB ∨ u = 0xC ∨ u = 0xD ∨ u = 0xE ∨ u = 0xF := by
  revert u
  decide

/-! ### Decoding an encoded word -/

/-- The group of an encoded word chooses the decoder's branch, and its fields are the operands. -/
theorem decodeWord_encode (i : Instr) : decodeWord (encode i) = .ok i := by
  cases i with
  | halt | cls | ret => rfl
  | jp nnn | call nnn | ldI nnn | jpV0 nnn => simp [encode]
  | seImm x kk | sneImm x kk | ldImm x kk | addImm x kk | rnd x kk => simp [encode]
  | seReg x y | sneReg x y | drw x y n => simp [encode]
  | ldReg x y | orReg x y | andReg x y | xorReg x y | addReg x y | subReg x y | shr x y | subnReg x y | shl x y =>
    simp [encode, decodeGroup8]
  | skp x | sknp x => simp [encode, decodeGroupE]
  | ldVxDt x | ldVxK x | ldDtVx x | ldStVx x | addI x | ldF x | ldB x | storeRegs x | loadRegs x =>
    simp [encode, decodeGroupF]

/-- The two bytes of a word decode as the word does, with nothing left over (R42). -/
theorem decodeBytes_bytesOfWord {op : Word} {i : Instr} (h : decodeWord op = .ok i) :
    decodeBytes (bytesOfWord op) = .ok (i, []) := by
  have hop : wordOfBytes (op.extractLsb' 8 8) (op.extractLsb' 0 8) = op := BitVec.extractLsb'_append_extractLsb'
  simp only [bytesOfWord, decodeBytes, hop, h]

/-- Settles O11, by cases on the instruction. -/
theorem decodeEncodeRoundTrip : Obligations.DecodeEncodeRoundTrip :=
  fun i _ => ⟨decodeWord_encode i, decodeBytes_bytesOfWord (decodeWord_encode i)⟩

/-- Settles O10: each of the seven words is what `encode` gives its instruction. -/
theorem sampleWordsDecode : Obligations.SampleWordsDecode :=
  ⟨decodeWord_encode .halt, decodeWord_encode .ret, decodeWord_encode (.call 0x300), decodeWord_encode (.subReg 1 2),
    decodeWord_encode (.drw 1 5 15), decodeWord_encode (.skp 2), decodeWord_encode (.loadRegs 2)⟩

/-! ### A word from its group and the fields an instruction has -/

section
variable {op : Word} {u : BitVec 4} {kk : Byte} {n : Fin 16}

theorem encNNN_of_group (hu : fieldU op = u) : encNNN u (fieldNNN op) = op := hu ▸ encNNN_fields op

theorem encXKK_of_group (hu : fieldU op = u) : encXKK u (fieldX op) (fieldKK op) = op := hu ▸ encXKK_fields op

theorem encXYN_of_group (hu : fieldU op = u) : encXYN u (fieldX op) (fieldY op) (fieldN op) = op :=
  hu ▸ encXYN_fields op

theorem encXKK_of_group_kk (hu : fieldU op = u) (hkk : fieldKK op = kk) : encXKK u (fieldX op) kk = op :=
  hkk ▸ encXKK_of_group hu

theorem encXYN_of_group_n (hu : fieldU op = u) (hn : fieldN op = n) : encXYN u (fieldX op) (fieldY op) n = op :=
  hn ▸ encXYN_of_group hu

end

/-! ### Encoding a decoded instruction -/

/-- If the answer `r` is an instruction, then `op` is that instruction's word. -/
def SoundFor (op : Word) (r : Except DecodeReject Instr) : Prop := ∀ i, r = .ok i → encode i = op

section
variable {op : Word}

theorem soundFor_ok {j : Instr} (h : encode j = op) : SoundFor op (.ok j) := by
  rintro i ⟨⟩
  exact h

theorem soundFor_error (e : DecodeReject) : SoundFor op (.error e) := nofun

/-- One comparison of the decoder. -/
theorem soundFor_ite {c : Prop} [Decidable c] {j : Instr} {r : Except DecodeReject Instr} (hc : c → encode j = op)
    (hr : SoundFor op r) : SoundFor op (if c then .ok j else r) := by
  by_cases h : c
  · rw [if_pos h]
    exact soundFor_ok (hc h)
  · rwa [if_neg h]

theorem decodeGroup0_sound : SoundFor op (decodeGroup0 op) := by
  unfold decodeGroup0
  iterate 3 refine soundFor_ite Eq.symm ?_
  exact soundFor_error _

theorem decodeGroup8_sound (hu : fieldU op = 0x8) : SoundFor op (decodeGroup8 op) := by
  unfold decodeGroup8
  iterate 9 refine soundFor_ite (encXYN_of_group_n hu) ?_
  exact soundFor_error _

theorem decodeGroupE_sound (hu : fieldU op = 0xE) : SoundFor op (decodeGroupE op) := by
  unfold decodeGroupE
  iterate 2 refine soundFor_ite (encXKK_of_group_kk hu) ?_
  exact soundFor_error _

theorem decodeGroupF_sound (hu : fieldU op = 0xF) : SoundFor op (decodeGroupF op) := by
  unfold decodeGroupF
  iterate 9 refine soundFor_ite (encXKK_of_group_kk hu) ?_
  exact soundFor_error _

end

/-- In each group the decoder compares every fixed bit of the word and hands on every other bit as an operand. -/
theorem decodeWord_sound (op : Word) : SoundFor op (decodeWord op) := by
  obtain hu | hu | hu | hu | hu | hu | hu | hu | hu | hu | hu | hu | hu | hu | hu | hu := group_cases (fieldU op)
  · rw [decodeWord_group0 hu]; exact decodeGroup0_sound
  · rw [decodeWord_group1 hu]; exact soundFor_ok (encNNN_of_group hu)
  · rw [decodeWord_group2 hu]; exact soundFor_ok (encNNN_of_group hu)
  · rw [decodeWord_group3 hu]; exact soundFor_ok (encXKK_of_group hu)
  · rw [decodeWord_group4 hu]; exact soundFor_ok (encXKK_of_group hu)
  · rw [decodeWord_group5 hu]; exact soundFor_ite (encXYN_of_group_n hu) (soundFor_error _)
  · rw [decodeWord_group6 hu]; exact soundFor_ok (encXKK_of_group hu)
  · rw [decodeWord_group7 hu]; exact soundFor_ok (encXKK_of_group hu)
  · rw [decodeWord_group8 hu]; exact decodeGroup8_sound hu
  · rw [decodeWord_group9 hu]; exact soundFor_ite (encXYN_of_group_n hu) (soundFor_error _)
  · rw [decodeWord_groupA hu]; exact soundFor_ok (encNNN_of_group hu)
  · rw [decodeWord_groupB hu]; exact soundFor_ok (encNNN_of_group hu)
  · rw [decodeWord_groupC hu]; exact soundFor_ok (encXKK_of_group hu)
  · rw [decodeWord_groupD hu]; exact soundFor_ok (encXYN_of_group hu)
  · rw [decodeWord_groupE hu]; exact decodeGroupE_sound hu
  · rw [decodeWord_groupF hu]; exact decodeGroupF_sound hu

/-- Settles O12, group by group. -/
theorem encodeDecodeRoundTrip : Obligations.EncodeDecodeRoundTrip := decodeWord_sound

end Sys2Proof
end

section
/-! PROOFS. The table of masks and matches (R66) and the list of unknown words (R68) agree with the decoder (O13,
O14). -/

namespace Sys2Proof

/-! ### The row of an encoded word -/

open Laws.EncodesItsRow in
/-- The family of Laws/PerInstr.lean, put together. -/
theorem encode_row (i : Instr) : encode i &&& (opcodeRow i).1 = (opcodeRow i).2 :=
  match i with
  | .halt => halt | .cls => cls | .ret => ret | .jp nnn => jp nnn | .call nnn => call nnn
  | .seImm x kk => seImm x kk | .sneImm x kk => sneImm x kk | .seReg x y => seReg x y | .sneReg x y => sneReg x y
  | .ldImm x kk => ldImm x kk | .addImm x kk => addImm x kk | .ldReg x y => ldReg x y | .orReg x y => orReg x y
  | .andReg x y => andReg x y | .xorReg x y => xorReg x y | .addReg x y => addReg x y | .subReg x y => subReg x y
  | .shr x y => shr x y | .subnReg x y => subnReg x y | .shl x y => shl x y | .ldI nnn => ldI nnn
  | .jpV0 nnn => jpV0 nnn | .rnd x kk => rnd x kk | .drw x y n => drw x y n | .skp x => skp x | .sknp x => sknp x
  | .ldVxDt x => ldVxDt x | .ldVxK x => ldVxK x | .ldDtVx x => ldDtVx x | .ldStVx x => ldStVx x | .addI x => addI x
  | .ldF x => ldF x | .ldB x => ldB x | .storeRegs x => storeRegs x | .loadRegs x => loadRegs x

/-! ### What a mask tells of the fields it keeps -/

section
variable {op mask w : Word}

theorem fieldU_of_mask (h : op &&& mask = w) (hm : fieldU mask = 0xF) : fieldU op = fieldU w := by
  have hand : fieldU w = fieldU op &&& fieldU mask := h ▸ BitVec.extractLsb'_and
  rw [hand, hm]
  exact BitVec.and_allOnes.symm

theorem fieldKK_of_mask (h : op &&& mask = w) (hm : fieldKK mask = 0xFF) : fieldKK op = fieldKK w := by
  have hand : fieldKK w = fieldKK op &&& fieldKK mask := h ▸ BitVec.extractLsb'_and
  rw [hand, hm]
  exact BitVec.and_allOnes.symm

theorem fieldN_of_mask (h : op &&& mask = w) (hm : fieldN mask = 0xF) : fieldN op = fieldN w := by
  have hmask : mask.extractLsb' 0 4 = 0xF#4 := congrArg BitVec.ofFin hm
  have hand : w.extractLsb' 0 4 = op.extractLsb' 0 4 &&& mask.extractLsb' 0 4 := h ▸ BitVec.extractLsb'_and
  rw [fieldN, fieldN, hand, hmask]
  exact congrArg BitVec.toFin BitVec.and_allOnes.symm

end

/-! ### A word of a row

The match of a row is the word of the row whose other fields are 0. -/

section
variable {op : Word} {u : BitVec 4} {kk : Byte} {n : Fin 16}

theorem group_of_row (h : op &&& 0xF000 = encNNN u 0) : fieldU op = u :=
  (fieldU_of_mask h (by decide)).trans (fieldU_encNNN u 0)

theorem encXKK_of_row (h : op &&& 0xF0FF = encXKK u 0 kk) : encXKK u (fieldX op) kk = op :=
  encXKK_of_group_kk ((fieldU_of_mask h (by decide)).trans (fieldU_encXKK u 0 kk))
    ((fieldKK_of_mask h (by decide)).trans (fieldKK_encXKK u 0 kk))

theorem encXYN_of_row (h : op &&& 0xF00F = encXYN u 0 0 n) : encXYN u (fieldX op) (fieldY op) n = op :=
  encXYN_of_group_n ((fieldU_of_mask h (by decide)).trans (fieldU_encXYN u 0 0 n))
    ((fieldN_of_mask h (by decide)).trans (fieldN_encXYN u 0 0 n))

end

/-- A word of the row of `i` is the word of the row's instruction whose operands are the word's own fields. -/
theorem exists_encode_of_row {op : Word} {i : Instr} (h : op &&& (opcodeRow i).1 = (opcodeRow i).2) :
    ∃ j, encode j = op ∧ opcodeRow j = opcodeRow i := by
  cases i with
  | halt => exact ⟨.halt, h.symm.trans BitVec.and_allOnes, rfl⟩
  | cls => exact ⟨.cls, h.symm.trans BitVec.and_allOnes, rfl⟩
  | ret => exact ⟨.ret, h.symm.trans BitVec.and_allOnes, rfl⟩
  | jp => exact ⟨.jp (fieldNNN op), encNNN_of_group (group_of_row h), rfl⟩
  | call => exact ⟨.call (fieldNNN op), encNNN_of_group (group_of_row h), rfl⟩
  | seImm => exact ⟨.seImm (fieldX op) (fieldKK op), encXKK_of_group (group_of_row h), rfl⟩
  | sneImm => exact ⟨.sneImm (fieldX op) (fieldKK op), encXKK_of_group (group_of_row h), rfl⟩
  | seReg => exact ⟨.seReg (fieldX op) (fieldY op), encXYN_of_row h, rfl⟩
  | ldImm => exact ⟨.ldImm (fieldX op) (fieldKK op), encXKK_of_group (group_of_row h), rfl⟩
  | addImm => exact ⟨.addImm (fieldX op) (fieldKK op), encXKK_of_group (group_of_row h), rfl⟩
  | ldReg => exact ⟨.ldReg (fieldX op) (fieldY op), encXYN_of_row h, rfl⟩
  | orReg => exact ⟨.orReg (fieldX op) (fieldY op), encXYN_of_row h, rfl⟩
  | andReg => exact ⟨.andReg (fieldX op) (fieldY op), encXYN_of_row h, rfl⟩
  | xorReg => exact ⟨.xorReg (fieldX op) (fieldY op), encXYN_of_row h, rfl⟩
  | addReg => exact ⟨.addReg (fieldX op) (fieldY op), encXYN_of_row h, rfl⟩
  | subReg => exact ⟨.subReg (fieldX op) (fieldY op), encXYN_of_row h, rfl⟩
  | shr => exact ⟨.shr (fieldX op) (fieldY op), encXYN_of_row h, rfl⟩
  | subnReg => exact ⟨.subnReg (fieldX op) (fieldY op), encXYN_of_row h, rfl⟩
  | shl => exact ⟨.shl (fieldX op) (fieldY op), encXYN_of_row h, rfl⟩
  | sneReg => exact ⟨.sneReg (fieldX op) (fieldY op), encXYN_of_row h, rfl⟩
  | ldI => exact ⟨.ldI (fieldNNN op), encNNN_of_group (group_of_row h), rfl⟩
  | jpV0 => exact ⟨.jpV0 (fieldNNN op), encNNN_of_group (group_of_row h), rfl⟩
  | rnd => exact ⟨.rnd (fieldX op) (fieldKK op), encXKK_of_group (group_of_row h), rfl⟩
  | drw => exact ⟨.drw (fieldX op) (fieldY op) (fieldN op), encXYN_of_group (group_of_row h), rfl⟩
  | skp => exact ⟨.skp (fieldX op), encXKK_of_row h, rfl⟩
  | sknp => exact ⟨.sknp (fieldX op), encXKK_of_row h, rfl⟩
  | ldVxDt => exact ⟨.ldVxDt (fieldX op), encXKK_of_row h, rfl⟩
  | ldVxK => exact ⟨.ldVxK (fieldX op), encXKK_of_row h, rfl⟩
  | ldDtVx => exact ⟨.ldDtVx (fieldX op), encXKK_of_row h, rfl⟩
  | ldStVx => exact ⟨.ldStVx (fieldX op), encXKK_of_row h, rfl⟩
  | addI => exact ⟨.addI (fieldX op), encXKK_of_row h, rfl⟩
  | ldF => exact ⟨.ldF (fieldX op), encXKK_of_row h, rfl⟩
  | ldB => exact ⟨.ldB (fieldX op), encXKK_of_row h, rfl⟩
  | storeRegs => exact ⟨.storeRegs (fieldX op), encXKK_of_row h, rfl⟩
  | loadRegs => exact ⟨.loadRegs (fieldX op), encXKK_of_row h, rfl⟩

/-- Settles O13: a decoded word is an encoded word, which is of its row, and a word of a row is an encoded word, which
decodes. -/
theorem decoderFollowsOpcodeTable : Obligations.DecoderFollowsOpcodeTable := by
  refine fun op => ⟨fun i h => ?_, fun i h => ?_⟩
  · rw [← decodeWord_sound op i h]
    exact encode_row i
  · obtain ⟨j, rfl, hrow⟩ := exists_encode_of_row h
    exact ⟨j, decodeWord_encode j, hrow⟩

/-! ### The unknown words -/

/-- A choice between an instruction and `r` answers none exactly when it is not taken and `r` answers none. -/
theorem ite_ok_ne_ok_iff {c : Prop} [Decidable c] {j : Instr} {r : Except DecodeReject Instr} :
    (∀ i, (if c then .ok j else r) ≠ .ok i) ↔ ¬c ∧ ∀ i, r ≠ .ok i := by
  by_cases hc : c
  · simp [hc]
  · simp [hc]

theorem fieldU_toNat (op : Word) : (fieldU op).toNat = op.toNat / 4096 := by
  rw [fieldU, BitVec.extractLsb'_toNat, Nat.shiftRight_eq_div_pow]
  omega

theorem fieldN_eq_iff (op : Word) (n : Fin 16) : fieldN op = n ↔ op.toNat % 16 = n.val := by
  rw [Fin.ext_iff, fieldN, BitVec.val_toFin, BitVec.extractLsb'_toNat]
  rfl

theorem fieldKK_eq_iff (op : Word) (kk : Byte) : fieldKK op = kk ↔ op.toNat % 256 = kk.toNat := by
  rw [← BitVec.toNat_inj, fieldKK, BitVec.extractLsb'_toNat]
  rfl

theorem decodeGroup0_ne_ok_iff (op : Word) : (∀ i, decodeGroup0 op ≠ .ok i) ↔
    op.toNat ≠ 0x0000 ∧ op.toNat ≠ 0x00E0 ∧ op.toNat ≠ 0x00EE := by
  simp [decodeGroup0, ite_ok_ne_ok_iff, ← BitVec.toNat_inj]

theorem decodeGroup8_ne_ok_iff (op : Word) : (∀ i, decodeGroup8 op ≠ .ok i) ↔
    op.toNat % 16 ∈ [0x8, 0x9, 0xA, 0xB, 0xC, 0xD, 0xF] := by
  simp only [decodeGroup8, ite_ok_ne_ok_iff, fieldN_eq_iff, Fin.isValue, Fin.coe_ofNat_eq_mod, Nat.zero_mod,
    Nat.one_mod, Nat.reduceMod, ne_eq, reduceCtorEq, not_false_eq_true, implies_true, and_true, List.mem_cons,
    List.not_mem_nil, or_false]
  omega

theorem decodeGroupE_ne_ok_iff (op : Word) : (∀ i, decodeGroupE op ≠ .ok i) ↔ op.toNat % 256 ∉ [0x9E, 0xA1] := by
  simp [decodeGroupE, ite_ok_ne_ok_iff, fieldKK_eq_iff]

theorem decodeGroupF_ne_ok_iff (op : Word) : (∀ i, decodeGroupF op ≠ .ok i) ↔
    op.toNat % 256 ∉ [0x07, 0x0A, 0x15, 0x18, 0x1E, 0x29, 0x33, 0x55, 0x65] := by
  simp [decodeGroupF, ite_ok_ne_ok_iff, fieldKK_eq_iff]

/-- Settles O14, group by group: in each, what the list says of the group is what the group's comparisons leave. -/
theorem unknownWordsAreListed : Obligations.UnknownWordsAreListed := by
  intro op
  rw [← fieldU_toNat]
  obtain hu | hu | hu | hu | hu | hu | hu | hu | hu | hu | hu | hu | hu | hu | hu | hu := group_cases (fieldU op)
  all_goals simp [hu, decodeGroup0_ne_ok_iff, decodeGroup8_ne_ok_iff, decodeGroupE_ne_ok_iff, decodeGroupF_ne_ok_iff,
    ite_ok_ne_ok_iff, fieldN_eq_iff]

end Sys2Proof
end

section
/-! PROOFS. The Step event in RUNNING (R60, R68) and PC's advance (R61; O8, O9, O53). -/

namespace Sys2Proof.Machine

/-! ### A Step of the schedule -/

theorem onlyChanges_withInputs (s : State) (keys : KeyLevels) (rnd : Byte) :
    OnlyChanges s (s.withInputs keys rnd) [] [.keys, .rnd] := by
  refine ⟨fun r _ => by simp, fun p hp => ?_⟩
  cases p <;> simp_all [Part.same]

/-- In RUNNING a Step of the schedule runs an instruction with the input levels the schedule gives. -/
theorem step_of_cons_step_running {s : State} {keys : KeyLevels} {rnd : Byte} {rest : List Event}
    (hsch : s.schedule = .step keys rnd :: rest) (hrun : s.status = .running) :
    step s = (State.withInputs { s with schedule := rest } keys rnd).runInstruction := by
  rw [step_of_cons hsch]
  exact State.onStep_running (s := { s with schedule := rest }) _ hrun

/-- Settles O8: neither sampling the inputs nor taking the event off the schedule changes the fetched word. -/
theorem stepRunsDecodedInstruction : Obligations.StepRunsDecodedInstruction := by
  intro s i hrun hop
  refine ⟨fun hsch => step_of_nil_running_ok hsch hrun hop, fun keys rnd rest hsch => ?_⟩
  rw [step_of_cons_step_running hsch hrun]
  exact State.runInstruction_ok hop

/-! ### The Step on an unknown word -/

theorem exists_eq_error_of_ne_ok {r : Except DecodeReject Instr} (h : ∀ i, r ≠ .ok i) : ∃ e, r = .error e := by
  cases r with
  | ok i => exact absurd rfl (h i)
  | error e => exact ⟨e, rfl⟩

/-- Settles O9, by the frames of taking the event, of sampling the inputs and of PC's advance. -/
theorem unknownOpcodeOnlyAdvancesPc : Obligations.UnknownOpcodeOnlyAdvancesPc := by
  rintro s keys rnd rest op hrun rfl hop hsch
  obtain ⟨e, he⟩ := exists_eq_error_of_ne_ok hop
  refine ⟨_, (step_of_cons_step_running hsch hrun).trans (State.runInstruction_error he), rfl, ?_, ?_⟩
  · exact s.unknownOpcodeOut_iff.2 ⟨⟨keys, rnd, s.nextEvent_of_cons hsch⟩, s.stepsOnUnknownOpcode_iff.2 ⟨hrun, hop⟩⟩
  · have hsampled := (onlyChanges_withSchedule s rest).trans (onlyChanges_withInputs _ keys rnd)
    exact (hsampled.trans (onlyChanges_advancePc _)).mono (by simp) (by simp)

/-! ### PC after an instruction (R61, R91) -/

theorem skip_pc (s : State) (taken : Bool) :
    (s.advancePc.skipIf taken).pc = s.pc + 2 ∨ (s.advancePc.skipIf taken).pc = s.pc + 4 := by
  cases taken
  · exact .inl rfl
  · exact .inr (BitVec.add_assoc s.pc 2 2)

/-- Settles O53: an instruction that does not assign PC writes it by its advance and, in a skip, once more. -/
theorem pcAdvancesByTwo : Obligations.PcAdvancesByTwo := by
  intro i s t hi h
  cases i with
  | halt | ret | jp nnn | call nnn | jpV0 nnn => cases hi
  | seImm x kk | sneImm x kk | seReg x y | sneReg x y | skp x | sknp x =>
    cases h
    exact (skip_pc s _).imp_right (⟨rfl, ·⟩)
  | loadRegs x =>
    have ht : s.advancePc.loadRegs s.i.toNat x = t := Host.Outcome.next.inj h
    rw [← ht]
    exact .inl rfl
  | _ => cases h; exact .inl rfl

end Sys2Proof.Machine
end

section
/-! PROOFS. HALT, CLS, RET, the jumps, CALL and the skips on a register (spec/40_flow.md; O15, O16, O17, O20, O21, O23,
O24, O25). The words are what `encode` gives their instructions. -/

namespace Sys2Proof.Machine

/-! ### HALT and CLS -/

/-- A fetch reads the zero word where both bytes are 0 (R42). -/
theorem State.fetchWord_eq_zero {s : State} (hhi : s.memRead s.pc.toNat = 0) (hlo : s.memRead (s.pc.toNat + 1) = 0) :
    s.fetchWord = 0 := by
  rw [State.fetchWord, hhi, hlo]
  rfl

/-- A word that decodes does not raise `unknown_opcode` (R36, R68). -/
theorem State.unknownOpcodeOut_eq_false {s : State} {i : Instr} (h : decodeWord s.fetchWord = .ok i) :
    s.unknownOpcodeOut = false := by
  rw [← Bool.not_eq_true, State.unknownOpcodeOut_iff, State.stepsOnUnknownOpcode_iff]
  rintro ⟨-, -, hunknown⟩
  exact hunknown i h

/-- Settles O15: a Step on the zero word runs HALT, and only the inputs have been sampled before it. -/
theorem haltChangesNothing : Obligations.HaltChangesNothing := by
  refine ⟨decodeWord_encode .halt, fun _ => rfl, fun s hrun hsch hhi hlo => ?_⟩
  have hop : decodeWord s.fetchWord = .ok .halt := by
    rw [State.fetchWord_eq_zero hhi hlo]
    exact decodeWord_encode .halt
  exact ⟨s.sampleFree, step_of_nil_running_ok hsch hrun hop, onlyChanges_sampleFree s,
    State.unknownOpcodeOut_eq_false hop⟩

/-- Settles O16, by the frames of PC's advance and of showing a framebuffer. -/
theorem clsClearsScreen : Obligations.ClsClearsScreen :=
  ⟨decodeWord_encode .cls, fun s => ⟨_, rfl, Framebuffer.get_clear, rfl, rfl,
    (onlyChanges_advancePc s).trans (onlyChanges_showFb _ _)⟩⟩

/-! ### Jumps -/

@[simp] theorem zextAddr_toNat (nnn : Addr) : (zextAddr nnn).toNat = nnn.toNat :=
  BitVec.toNat_setWidth_of_le (by decide)

@[simp] theorem zextByte_toNat (b : Byte) : (zextByte b).toNat = b.toNat :=
  BitVec.toNat_setWidth_of_le (by decide)

/-- An assignment to PC after its advance changes nothing but PC (R61). -/
theorem onlyChanges_advancePc_setPc (s : State) (w : Word) : OnlyChanges s (s.advancePc.setPc w) [] [.pc] :=
  onlyChanges_setPc s w

/-- Settles O20: the assignment overwrites PC's advance. -/
theorem jpSetsPc : Obligations.JpSetsPc :=
  fun nnn => ⟨decodeWord_encode (.jp nnn), fun s =>
    ⟨_, rfl, zextAddr_toNat nnn, onlyChanges_advancePc_setPc s _⟩⟩

/-- An address and a byte add up to less than 65536 (R90). -/
theorem zextAddr_add_zextByte_toNat (nnn : Addr) (b : Byte) :
    (zextAddr nnn + zextByte b).toNat = nnn.toNat + b.toNat := by
  rw [BitVec.toNat_add, zextAddr_toNat, zextByte_toNat]
  omega

/-- Settles O23: the sum does not wrap. -/
theorem jpV0AddsOffset : Obligations.JpV0AddsOffset :=
  fun nnn => ⟨decodeWord_encode (.jpV0 nnn), fun s =>
    ⟨_, rfl, zextAddr_add_zextByte_toNat nnn _, onlyChanges_advancePc_setPc s _⟩⟩

/-! ### RET and CALL on the stack -/

/-- There is a stack entry at every index below 16 (R15). -/
theorem State.exists_stackAt {s : State} {k : Nat} (h : k < Config.stackEntries) : ∃ w, s.stackAt k = some w :=
  Option.ne_none_iff_exists'.1 fun hnone => Nat.not_le.2 h ((s.stackAt_eq_none_iff k).1 hnone)

/-- RET's pop takes 1 from SP when the stack is not empty. -/
theorem State.dropTop_sp_toNat {s : State} (h : 1 ≤ s.sp.toNat) : s.dropTop.sp.toNat = s.sp.toNat - 1 := by
  rw [State.dropTop_sp]
  bv_omega

/-- Settles O17: SP in 1..15 names a stack entry, which RET takes PC from. -/
theorem retPopsReturnAddress : Obligations.RetPopsReturnAddress := by
  refine ⟨decodeWord_encode .ret, fun s hpos hle => ?_⟩
  have hsp : s.sp ≠ 0 := fun h0 => by simp [h0] at hpos
  obtain ⟨w, hw⟩ := State.exists_stackAt (s := s) (Nat.lt_succ_of_le hle)
  exact ⟨_, execRet_entry hsp hw, hw, State.dropTop_sp_toNat hpos,
    ((onlyChanges_dropTop s).trans (onlyChanges_setPc _ w)).mono (by simp) (by simp)⟩

/-- With room on the stack, a push writes the entry above SP and no other (R15, R85). -/
theorem State.stackAt_push_of_room {s : State} (h : s.sp.toNat < Config.stackMaxDepth) (w : Word) (k : Nat) :
    (s.push w).stackAt k = if k = s.sp.toNat + 1 then some w else s.stackAt k := by
  have hsp : (s.sp + 1).toNat = s.sp.toNat + 1 := s.push_sp_toNat w h
  have hfits : k = s.sp.toNat + 1 → k < Config.stackEntries := by
    simp only [Config.stackMaxDepth, Config.stackEntries] at h ⊢
    omega
  simp only [State.stackAt_push, hsp, and_iff_left_of_imp hfits]

/-- Settles O21, by what a push on a stack with room does to SP and to each entry. -/
theorem callPushesReturnAddress : Obligations.CallPushesReturnAddress := by
  refine fun nnn => ⟨decodeWord_encode (.call nnn), fun s h => ?_⟩
  have hstack := State.stackAt_push_of_room (s := s.advancePc) h s.advancePc.pc
  refine ⟨_, execCall_room h, s.advancePc.push_sp_toNat (s.pc + 2) h, (hstack _).trans (if_pos rfl),
    fun k hk => (hstack k).trans (if_neg hk), zextAddr_toNat nnn, ?_⟩
  have hpush := (onlyChanges_advancePc s).trans (onlyChanges_push _ s.advancePc.pc)
  exact (hpush.trans (onlyChanges_setPc _ (zextAddr nnn))).mono (by simp) (by simp)

/-! ### Skips (R91) -/

/-- PC after a skip: `pc0 + 4` when it is taken, `pc0 + 2` when not. -/
theorem advancePc_skipIf_pc (s : State) (taken : Bool) :
    (s.advancePc.skipIf taken).pc = if taken then s.pc + 4 else s.pc + 2 := by
  cases taken
  · rfl
  · exact BitVec.add_assoc s.pc 2 2

/-- SE: the skip is taken on equal bytes (R86, R88). -/
theorem skipOnEqual_spec (s : State) (a b : Byte) :
    ∃ t, (.next (s.advancePc.skipIf (a == b)) : Result) = .next t ∧ t.pc = (if a = b then s.pc + 4 else s.pc + 2) ∧
      OnlyChanges s t [] [.pc] := by
  refine ⟨_, rfl, ?_, onlyChanges_skipIf s _⟩
  simp only [advancePc_skipIf_pc, beq_iff_eq]

/-- SNE: the skip is taken on different bytes (R87, R89). -/
theorem skipOnDifferent_spec (s : State) (a b : Byte) :
    ∃ t, (.next (s.advancePc.skipIf (a != b)) : Result) = .next t ∧ t.pc = (if a = b then s.pc + 2 else s.pc + 4) ∧
      OnlyChanges s t [] [.pc] := by
  refine ⟨_, rfl, ?_, onlyChanges_skipIf s _⟩
  simp only [advancePc_skipIf_pc, bne_iff_ne, ite_not]

/-- Settles O24, the second operand being kk. -/
theorem immediateSkips : Obligations.ImmediateSkips :=
  fun x kk => ⟨decodeWord_encode (.seImm x kk), decodeWord_encode (.sneImm x kk), fun s =>
    ⟨skipOnEqual_spec s (s.getV x) kk, skipOnDifferent_spec s (s.getV x) kk⟩⟩

/-- Settles O25, the second operand being Vy. -/
theorem registerSkips : Obligations.RegisterSkips :=
  fun x y => ⟨decodeWord_encode (.seReg x y), decodeWord_encode (.sneReg x y), fun s =>
    ⟨skipOnEqual_spec s (s.getV x) (s.getV y), skipOnDifferent_spec s (s.getV x) (s.getV y)⟩⟩

end Sys2Proof.Machine
end

section
/-! PROOFS. The loads, arithmetic, logic and shifts (spec/41_load_alu.md; O26 to O33). All but LD I are one of the two
shared forms, `resultToV` or `flagAndResult`, on a value and a flag; what is proved here is the arithmetic of both. -/

namespace Sys2Proof.Machine

/-! ### The results as numbers -/

/-- The difference of two bytes modulo 256, with no number below 0 (R108, R110). -/
theorem byte_sub_toNat (a b : Byte) : (a - b).toNat = (256 + a.toNat - b.toNat) % 256 := by
  have hb : b.toNat < 256 := b.isLt
  rw [BitVec.toNat_sub]
  omega

/-- A byte shifted right by one is its half (R109). -/
theorem byte_shiftRight_one_toNat (a : Byte) : (a >>> 1).toNat = a.toNat / 2 := by
  rw [BitVec.toNat_ushiftRight, Nat.shiftRight_eq_div_pow, pow_one]

/-- A byte shifted left by one is its double modulo 256 (R111). -/
theorem byte_shiftLeft_one_toNat (a : Byte) : (a <<< 1).toNat = a.toNat * 2 % 256 := by
  rw [BitVec.toNat_shiftLeft, Nat.shiftLeft_eq, pow_one]

/-! ### The flags -/

theorem flagByte_carryOf (a b : Byte) : flagByte (carryOf a b) = if a.toNat + b.toNat > 255 then 1 else 0 := by
  simp only [flagByte, carryOf, decide_eq_true_eq]

theorem flagByte_noBorrow (a b : Byte) : flagByte (noBorrow a b) = if a.toNat ≥ b.toNat then 1 else 0 := by
  simp only [flagByte, noBorrow, decide_eq_true_eq]

theorem flagByte_toNat (c : Bool) : (flagByte c).toNat = c.toNat := by
  cases c <;> rfl

/-- The bit SHR shifts out is the remainder by 2 (R109). -/
theorem flagByte_shiftedOutRight_toNat (a : Byte) : (flagByte (shiftedOutRight a)).toNat = a.toNat % 2 := by
  have hbit : (shiftedOutRight a).toNat = a.toNat / 2 ^ 0 % 2 := Nat.toNat_testBit a.toNat 0
  rw [flagByte_toNat, hbit, pow_zero, Nat.div_one]

/-- The bit SHL shifts out is the quotient by 128, a byte being below 256 (R111). -/
theorem flagByte_shiftedOutLeft_toNat (a : Byte) : (flagByte (shiftedOutLeft a)).toNat = a.toNat / 128 := by
  have hbit : (shiftedOutLeft a).toNat = a.toNat / 2 ^ 7 % 2 := Nat.toNat_testBit a.toNat 7
  have ha : a.toNat < 256 := a.isLt
  rw [flagByte_toNat, hbit]
  omega

/-! ### Instructions that write one result -/

/-- Settles O26: LD Vx, kk writes the byte itself. -/
theorem ldImmediate : Obligations.LdImmediate :=
  fun x kk => ⟨decodeWord_encode (.ldImm x kk), fun s => resultToV_spec s x kk⟩

/-- Settles O27, the sum of two bytes being modulo 256. -/
theorem addImmediate : Obligations.AddImmediate := by
  refine fun x kk => ⟨decodeWord_encode (.addImm x kk), fun s => ?_⟩
  obtain ⟨t, ht, hx, hpc, hframe⟩ := resultToV_spec s x (s.getV x + kk)
  exact ⟨t, ht, by rw [hx, BitVec.toNat_add], hpc, hframe⟩

/-- Settles O28: LD Vx, Vy writes the byte in Vy. -/
theorem ldRegister : Obligations.LdRegister :=
  fun x y => ⟨decodeWord_encode (.ldReg x y), fun s => resultToV_spec s x (s.getV y)⟩

/-- `resultToV_spec` for a result known by its bits. -/
theorem resultToV_bits (s : State) (x : RegNum) {b : Byte} {bit : Nat → Bool} (hbits : ∀ k, b.getLsbD k = bit k) :
    ∃ t, resultToV s x b = .next t ∧ t.pc = s.pc + 2 ∧ OnlyChanges s t [x] [.pc] ∧
      ∀ k < 8, (t.getV x).getLsbD k = bit k := by
  obtain ⟨t, ht, hx, hpc, hframe⟩ := resultToV_spec s x b
  exact ⟨t, ht, hpc, hframe, fun k _ => hx ▸ hbits k⟩

/-- Settles O29, by the bits of OR, AND and XOR. -/
theorem bitwiseLogic : Obligations.BitwiseLogic :=
  fun x y => ⟨decodeWord_encode (.orReg x y), decodeWord_encode (.andReg x y), decodeWord_encode (.xorReg x y),
    fun s => ⟨resultToV_bits s x fun _ => BitVec.getLsbD_or, resultToV_bits s x fun _ => BitVec.getLsbD_and,
      resultToV_bits s x fun _ => BitVec.getLsbD_xor⟩⟩

/-! ### Instructions that write a flag and a result (R100) -/

/-- Settles O30: the sum of two bytes and its carry. -/
theorem addRegisterWithCarry : Obligations.AddRegisterWithCarry := by
  refine fun x y => ⟨decodeWord_encode (.addReg x y), fun s => ?_⟩
  obtain ⟨t, ht, hx, hflag, hpc, hframe⟩ :=
    flagAndResult_spec s x (carryOf (s.getV x) (s.getV y)) (s.getV x + s.getV y)
  exact ⟨t, ht, by rw [hx, BitVec.toNat_add], fun h => (hflag h).trans (flagByte_carryOf _ _), hpc, hframe⟩

/-- A subtraction of two bytes into Vx: SUB and SUBN differ in the order of the operands only (R108, R110). -/
theorem flagAndResult_sub_spec (s : State) (x : RegNum) (a b : Byte) :
    ∃ t, flagAndResult s x (noBorrow a b) (a - b) = .next t ∧ (t.getV x).toNat = (256 + a.toNat - b.toNat) % 256 ∧
      (x ≠ 15 → t.getV 15 = if a.toNat ≥ b.toNat then 1 else 0) ∧ t.pc = s.pc + 2 ∧
      OnlyChanges s t [x, 15] [.pc] := by
  obtain ⟨t, ht, hx, hflag, hpc, hframe⟩ := flagAndResult_spec s x (noBorrow a b) (a - b)
  exact ⟨t, ht, by rw [hx, byte_sub_toNat], fun h => (hflag h).trans (flagByte_noBorrow a b), hpc, hframe⟩

/-- Settles O31: SUB is the subtraction of Vy from Vx, SUBN that of Vx from Vy. -/
theorem subtractWithNoBorrow : Obligations.SubtractWithNoBorrow :=
  fun x y => ⟨decodeWord_encode (.subReg x y), decodeWord_encode (.subnReg x y), fun s =>
    ⟨flagAndResult_sub_spec s x (s.getV x) (s.getV y), flagAndResult_sub_spec s x (s.getV y) (s.getV x)⟩⟩

/-- `flagAndResult_spec` for a result and a flag known as numbers. -/
theorem flagAndResult_toNat (s : State) (x : RegNum) {c : Bool} {b : Byte} {value flag : Nat} (hb : b.toNat = value)
    (hc : (flagByte c).toNat = flag) :
    ∃ t, flagAndResult s x c b = .next t ∧ (t.getV x).toNat = value ∧ (x ≠ 15 → (t.getV 15).toNat = flag) ∧
      t.pc = s.pc + 2 ∧ OnlyChanges s t [x, 15] [.pc] := by
  obtain ⟨t, ht, hx, hflag, hpc, hframe⟩ := flagAndResult_spec s x c b
  exact ⟨t, ht, hx ▸ hb, fun h => hflag h ▸ hc, hpc, hframe⟩

/-- Settles O32: the half and the double of Vx, with the bit shifted out as VF, whatever y is. -/
theorem shiftsByOne : Obligations.ShiftsByOne :=
  fun x y => ⟨decodeWord_encode (.shr x y), decodeWord_encode (.shl x y), fun s =>
    ⟨flagAndResult_toNat s x (byte_shiftRight_one_toNat _) (flagByte_shiftedOutRight_toNat _),
      flagAndResult_toNat s x (byte_shiftLeft_one_toNat _) (flagByte_shiftedOutLeft_toNat _)⟩⟩

/-! ### The index register -/

/-- Settles O33: I holds the address, extended by zeros. -/
theorem ldIndex : Obligations.LdIndex :=
  fun nnn => ⟨decodeWord_encode (.ldI nnn), fun s => ⟨_, rfl, zextAddr_toNat nnn, rfl,
    (onlyChanges_advancePc s).trans (onlyChanges_setI _ _)⟩⟩

end Sys2Proof.Machine
end

section
/-! PROOFS. RND and DRW (spec/42_rnd_drw.md; O34, O35, O55). DRW's loops visit the cells under the sprite's set pixels
once each, so a cell under the sprite is inverted, and a second draw of the same sprite inverts it back. -/

namespace Sys2Proof.Machine

/-! ### RND -/

/-- Settles O34: the result is an AND, known by its bits. -/
theorem rndMasksInput : Obligations.RndMasksInput := by
  refine fun x kk => ⟨decodeWord_encode (.rnd x kk), fun s => ?_⟩
  obtain ⟨t, ht, hpc, hframe, hbits⟩ := resultToV_bits s x fun _ => BitVec.getLsbD_and (x := s.rnd) (y := kk)
  exact ⟨t, ht, hbits, hpc, hframe⟩

/-! ### The cells under the sprite -/

/-- The cell of a pixel, by its index (R19, R121). -/
theorem cellOf_eq_iff (px py : Nat) (j : Fin Config.fbCells) :
    cellOf px py = j ↔ j.val = px % 64 + py % 32 * 64 := by
  rw [Fin.ext_iff, eq_comm]
  rfl

section
variable (s : State) (x y : RegNum) (n : Fin 16)

/-- The cells R121's loops visit in `s`. -/
def State.drawnCells : List (Fin Config.fbCells) :=
  s.spriteCells s.i.toNat (s.getV x).toNat (s.getV y).toNat n.val

theorem State.drawing_eq : s.drawing x y n = drawCells s.fb (s.drawnCells x y n) := rfl

theorem State.mem_drawnCells_iff (j : Fin Config.fbCells) : j ∈ s.drawnCells x y n ↔ SpriteCovers s x y n j := by
  simp only [State.drawnCells, State.mem_spriteCells, cellOf_eq_iff, SpriteCovers, spriteBit]

/-- No cell is visited twice (R122 (e)): a sprite has at most 15 rows. -/
theorem State.drawnCells_nodup : (s.drawnCells x y n).Nodup :=
  s.spriteCells_nodup _ _ _ _ (by omega)

/-- The draw hits exactly when one of the cells under the sprite was 1 before it (R122 (e)). -/
theorem State.drawing_hit_iff :
    (s.drawing x y n).2 = true ↔ ∃ j, SpriteCovers s x y n j ∧ s.pixel j = true := by
  rw [State.drawing_eq, drawCells_hit s.fb (s.drawnCells_nodup x y n), List.any_eq_true]
  exact exists_congr fun j => and_congr_left' (s.mem_drawnCells_iff x y n j)

end

/-! ### What DRW leaves -/

theorem flagByte_eq_one_iff (c : Bool) : flagByte c = 1 ↔ c = true := by
  cases c <;> decide

theorem flagByte_eq_zero_iff (c : Bool) : flagByte c = 0 ↔ c = false := by
  cases c <;> decide

section
variable {s t : State} {x y : RegNum} {n : Fin 16} (h : exec (.drw x y n) s = .next t)
include h

theorem pixel_of_exec_drw (j : Fin Config.fbCells) :
    t.pixel j = (s.pixel j ^^ decide (j ∈ s.drawnCells x y n)) := by
  cases h
  exact get_drawCells s.fb (s.drawnCells_nodup x y n) j

theorem pixel_of_exec_drw_covered {j : Fin Config.fbCells} (hj : SpriteCovers s x y n j) :
    t.pixel j = !s.pixel j := by
  rw [pixel_of_exec_drw h, decide_eq_true ((s.mem_drawnCells_iff x y n j).2 hj), Bool.xor_true]

theorem pixel_of_exec_drw_uncovered {j : Fin Config.fbCells} (hj : ¬SpriteCovers s x y n j) :
    t.pixel j = s.pixel j := by
  rw [pixel_of_exec_drw h, decide_eq_false (mt (s.mem_drawnCells_iff x y n j).1 hj), Bool.xor_false]

theorem vf_of_exec_drw : t.getV regF = flagByte (s.drawing x y n).2 := by
  cases h
  simp

theorem vf_eq_one_iff_of_exec_drw : t.getV regF = 1 ↔ ∃ j, SpriteCovers s x y n j ∧ s.pixel j = true := by
  rw [vf_of_exec_drw h, flagByte_eq_one_iff, s.drawing_hit_iff]

theorem vf_eq_zero_iff_of_exec_drw : t.getV regF = 0 ↔ ∀ j, SpriteCovers s x y n j → s.pixel j = false := by
  rw [vf_of_exec_drw h, flagByte_eq_zero_iff, ← Bool.not_eq_true, s.drawing_hit_iff]
  simp only [not_exists, not_and, Bool.not_eq_true]

end

/-- Settles O35, cell by cell; the frame is R26's. -/
theorem drwDrawsSprite : Obligations.DrwDrawsSprite := by
  refine fun x y n => ⟨decodeWord_encode (.drw x y n), fun s => ?_⟩
  have ht : exec (.drw x y n) s = .next _ := rfl
  exact ⟨_, ht, fun _ => pixel_of_exec_drw_covered ht, fun _ => pixel_of_exec_drw_uncovered ht,
    (vf_eq_one_iff_of_exec_drw ht).2, (vf_eq_zero_iff_of_exec_drw ht).2, rfl, rfl, exec_onlyChanges ht⟩

/-! ### Two draws -/

/-- A DRW that keeps its coordinates leaves the same cells under the sprite: it writes neither I nor memory (R121). -/
theorem spriteCovers_of_exec_drw {s t : State} {x y : RegNum} {n : Fin 16} (h : exec (.drw x y n) s = .next t)
    (hx : t.getV x = s.getV x) (hy : t.getV y = s.getV y) (j : Fin Config.fbCells) :
    SpriteCovers t x y n j ↔ SpriteCovers s x y n j := by
  obtain ⟨-, hkept⟩ := exec_onlyChanges h
  have hi : t.i = s.i := hkept .i (by simp [instrWritesParts])
  have hmem : ∀ a, t.memRead a = s.memRead a := hkept .mem (by simp [instrWritesParts])
  simp only [SpriteCovers, hx, hy, hi, hmem]

/-- Settles O55: the second draw inverts the cells the first inverted, and finds a 1 where the first turned one on. -/
theorem drawTwiceRestoresScreen : Obligations.DrawTwiceRestoresScreen := by
  intro s t x y n ht hx hy
  have hcovers := spriteCovers_of_exec_drw ht hx hy
  have hu : exec (.drw x y n) t = .next _ := rfl
  refine ⟨_, hu, fun j => ?_, (vf_eq_one_iff_of_exec_drw hu).trans (exists_congr fun j => ?_)⟩
  · by_cases hj : SpriteCovers s x y n j
    · rw [pixel_of_exec_drw_covered hu ((hcovers j).2 hj), pixel_of_exec_drw_covered ht hj, Bool.not_not]
    · rw [pixel_of_exec_drw_uncovered hu (mt (hcovers j).1 hj), pixel_of_exec_drw_uncovered ht hj]
  · rw [hcovers j]
    refine and_congr_right fun hj => ?_
    rw [pixel_of_exec_drw_covered ht hj, Bool.not_eq_true']

end Sys2Proof.Machine
end

section
/-! PROOFS. The keypad (spec/43_keypad.md; O5, O36, O37, O50). A wait is left by a KeyEvent, which is the deferred write
of LD Vx, K, or by Reset; every other event's frame leaves the engine alone. -/

namespace Sys2Proof.Machine

/-! ### SKP and SKNP -/

/-- A key is pressed when its code is at most 15 and its level is 1 (R131, D16). -/
theorem State.keyPressed_iff (s : State) (k : Byte) :
    s.keyPressed k = true ↔ k.toNat ≤ 15 ∧ s.keys.getLsbD k.toNat = true := by
  simp [State.keyPressed]

/-- Settles O36; SKNP takes the other branch of the same test. -/
theorem keySkips : Obligations.KeySkips := by
  refine fun x => ⟨decodeWord_encode (.skp x), decodeWord_encode (.sknp x), fun s =>
    ⟨⟨_, rfl, onlyChanges_skipIf s _, ?_⟩, ⟨_, rfl, onlyChanges_skipIf s _, ?_⟩⟩⟩
  · simp only [advancePc_skipIf_pc, State.keyPressed_iff]
  · simp only [advancePc_skipIf_pc, Bool.not_eq_true', ← Bool.not_eq_true, State.keyPressed_iff, ite_not]

/-! ### The wait's begin and end (R133, R134) -/

/-- Settles O37, by the frames of PC's advance and of the entry into the wait. -/
theorem ldKeyEntersWait : Obligations.LdKeyEntersWait :=
  fun x => ⟨decodeWord_encode (.ldVxK x), fun s => ⟨_, rfl, rfl, rfl, rfl,
    (onlyChanges_advancePc s).trans (onlyChanges_enterWait _ x)⟩⟩

theorem keyByte_toNat (k : KeyCode) : (keyByte k).toNat = k.val :=
  (BitVec.toNat_ofNat _ _).trans (Nat.mod_eq_of_lt (k.isLt.trans (by decide)))

theorem onlyChanges_withStatus (s : State) (st : Status) : OnlyChanges s { s with status := st } [] [.status] := by
  refine ⟨fun r _ => rfl, fun p hp => ?_⟩
  cases p <;> simp_all [Part.same, State.stackAt, State.memRead, State.pixel]

/-- A KeyEvent in WAITING puts the key's code in the register that WX names and runs on (R134). -/
theorem onKeyEvent_waiting_spec {s : State} (h : s.status = .waiting) (k : KeyCode) :
    ((s.onKeyEvent k).getV s.wx).toNat = k.val ∧ (s.onKeyEvent k).status = .running ∧
      (s.onKeyEvent k).schedule = s.schedule ∧ OnlyChanges s (s.onKeyEvent k) [s.wx] [.status] := by
  rw [State.onKeyEvent_waiting h]
  refine ⟨?_, rfl, rfl, (onlyChanges_writeV s s.wx _).trans (onlyChanges_withStatus _ .running)⟩
  have hread : (s.setV s.wx (keyByte k)).getV s.wx = keyByte k := by simp
  exact (congrArg BitVec.toNat hread).trans (keyByte_toNat k)

/-- Settles O5, by what a KeyEvent does in WAITING and outside it. -/
theorem keyEventEndsWait : Obligations.KeyEventEndsWait := by
  intro s k rest hsch
  have htaken := onlyChanges_withSchedule s rest
  refine ⟨_, step_of_cons hsch, ?_⟩
  by_cases hwait : s.status = .waiting
  · obtain ⟨hcode, hstatus, hrest, hframe⟩ := onKeyEvent_waiting_spec (s := { s with schedule := rest }) hwait k
    exact ⟨hrest, fun _ => ⟨hcode, hstatus, (htaken.trans hframe).mono (by simp) (by simp)⟩,
      fun hnot => absurd hwait hnot⟩
  · rw [State.onKeyEvent_not_waiting (s := { s with schedule := rest }) hwait k]
    exact ⟨rfl, fun h => absurd h hwait, fun _ => htaken⟩

/-! ### What leaves a wait alone (R135, R169) -/

theorem onlyChanges_onTick (s : State) : OnlyChanges s s.onTick [] [.dt, .st] := by
  refine ⟨fun r _ => by simp, fun p hp => ?_⟩
  cases p <;> simp_all [Part.same]

/-- A Load writes memory or, refused, nothing (R191). -/
theorem onlyChanges_onLoad (s : State) (bytes : List Byte) : OnlyChanges s (s.onLoad bytes) [] [.mem] := by
  unfold State.onLoad
  split
  · exact .refl s _ _
  · exact onlyChanges_memWriteBytes s _ bytes

/-- Outside RUNNING an event that is neither a Reset nor the KeyEvent of a wait changes at most memory, the timers and
REDRAW (R169). -/
theorem takeEvent_onlyChanges_of_not_running {s t : State} {e : Event} (hrun : s.status ≠ .running)
    (hreset : e ≠ .reset) (hkey : s.status = .waiting → ∀ k, e ≠ .keyEvent k) (h : s.takeEvent e = .next t) :
    OnlyChanges s t [] [.mem, .dt, .st, .redraw] := by
  cases e with
  | reset => exact absurd rfl hreset
  | load bytes => cases h; exact (onlyChanges_onLoad s bytes).mono (by simp) (by simp)
  | step keys rnd => cases (State.onStep_not_running _ hrun).symm.trans h; exact .refl s _ _
  | tick => cases h; exact (onlyChanges_onTick s).mono (by simp) (by simp)
  | keyEvent k =>
    have hidle : s.onKeyEvent k = s := State.onKeyEvent_not_waiting (fun hwait => hkey hwait k rfl) k
    cases (congrArg Host.Outcome.next hidle).symm.trans h
    exact .refl s _ _
  | redrawAck => cases h; exact (onlyChanges_onRedrawAck s).mono (by simp) (by simp)

/-- Settles O50: an event of the schedule ends the wait or has a frame without the engine; with the schedule used up, a
Step changes nothing. -/
theorem waitEndsByKeyOrReset : Obligations.WaitEndsByKeyOrReset := by
  intro s t hwait h
  have hrun : s.status ≠ .running := by simp [hwait]
  cases hsch : s.schedule with
  | nil =>
    rw [step_of_nil hsch, State.onStep_not_running _ hrun] at h
    cases h
    exact .inr (.inr (.refl s _ _))
  | cons e rest =>
    by_cases hkey : ∃ k, e = .keyEvent k
    · obtain ⟨k, rfl⟩ := hkey
      exact .inl ⟨k, rest, rfl⟩
    by_cases hreset : e = .reset
    · exact .inr (.inl ⟨rest, hreset ▸ rfl⟩)
    · rw [step_of_cons hsch] at h
      have hframe := takeEvent_onlyChanges_of_not_running (s := { s with schedule := rest }) hrun hreset
        (fun _ k hk => hkey ⟨k, hk⟩) h
      exact .inr (.inr (((onlyChanges_withSchedule s rest).trans hframe).mono (by simp) (by simp)))

end Sys2Proof.Machine
end

section
/-! PROOFS. The Fx family (spec/44_fx.md; O38 to O45, O56). LD B and LD [I] write one block of bytes at I,
which a read gives back inside it and which no cell outside it sees. -/

namespace Sys2Proof.Machine

/-! ### Timers (R141 to R143) -/

/-- Settles O38: LD Vx, DT writes DT to Vx. -/
theorem ldFromDelayTimer : Obligations.LdFromDelayTimer :=
  fun x => ⟨decodeWord_encode (.ldVxDt x), fun s => resultToV_spec s x s.dt⟩

/-- Settles O39, by the frames of PC's advance and of the write of DT. -/
theorem ldToDelayTimer : Obligations.LdToDelayTimer :=
  fun x => ⟨decodeWord_encode (.ldDtVx x), fun s => ⟨_, rfl, rfl, rfl,
    (onlyChanges_advancePc s).trans (onlyChanges_setDt _ _)⟩⟩

/-- The output `tone` is 1 exactly while ST is above 0 (R35). -/
theorem State.tone_iff (s : State) : s.tone = true ↔ s.st.toNat > 0 := by
  rw [State.tone, decide_eq_true_iff, ← BitVec.toNat_ne_iff_ne]
  exact Nat.pos_iff_ne_zero.symm

/-- Settles O40: the tone is a function of ST, so it follows the write. -/
theorem ldToSoundTimer : Obligations.LdToSoundTimer :=
  fun x => ⟨decodeWord_encode (.ldStVx x), fun s => ⟨s.advancePc.setSt (s.getV x), rfl, rfl, State.tone_iff _, rfl,
    (onlyChanges_advancePc s).trans (onlyChanges_setSt _ _)⟩⟩

/-! ### The index register (R144, R145) -/

/-- Settles O41: the sum of two 16-bit values is modulo 65536. -/
theorem addToIndex : Obligations.AddToIndex := by
  refine fun x => ⟨decodeWord_encode (.addI x), fun s => ⟨_, rfl, ?_, rfl,
    (onlyChanges_advancePc s).trans (onlyChanges_setI _ _)⟩⟩
  rw [State.setI_i, BitVec.toNat_add, zextByte_toNat]

/-- The address of a glyph is 5 times the digit: 5 * 15 is far below 65536 (R145). -/
theorem glyphAddress_toNat (b : Byte) : (glyphAddress b).toNat = 5 * (b.toNat % 16) := by
  rw [glyphAddress, BitVec.toNat_ofNat, Config.fontBase]
  omega

/-- Settles O42, by the address of the low nibble's glyph. -/
theorem ldFontAddress : Obligations.LdFontAddress :=
  fun x => ⟨decodeWord_encode (.ldF x), fun s => ⟨_, rfl, glyphAddress_toNat _, rfl,
    (onlyChanges_advancePc s).trans (onlyChanges_setI _ _)⟩⟩

/-! ### LD B, Vx (R146) -/

/-- Each of the three digits fits a byte (R146). -/
theorem bcdDigits_toNat (b : Byte) :
    (bcdDigits b).map BitVec.toNat = [b.toNat / 100, b.toNat / 10 % 10, b.toNat % 10] := by
  have hb : b.toNat < 256 := b.isLt
  simp only [bcdDigits, List.map_cons, List.map_nil, BitVec.toNat_ofNat, List.cons.injEq, and_true]
  omega

/-- After Fx33 the cell at I + k reads as digit k of Vx. -/
theorem memRead_of_exec_ldB {s t : State} {x : RegNum} (hwf : s.mem.wf = true) (h : exec (.ldB x) s = .next t)
    (k : Nat) (hk : k < 3) : (t.memRead (s.i.toNat + k)).toNat =
      [(s.getV x).toNat / 100, (s.getV x).toNat / 10 % 10, (s.getV x).toNat % 10][k] := by
  cases h
  have hfits : (bcdDigits (s.getV x)).length ≤ Config.memSize := show 3 ≤ 4096 by decide
  have hread := State.memRead_memWriteBytes_at (s := s.advancePc) hwf s.i.toNat _ hfits k hk
  calc _ = (bcdDigits (s.getV x))[k].toNat := congrArg BitVec.toNat hread
    _ = ((bcdDigits (s.getV x)).map BitVec.toNat)[k] := (List.getElem_map _).symm
    _ = _ := List.getElem_of_eq (bcdDigits_toNat _) _

/-- Settles O43: the three digits are the block written at I. -/
theorem ldBcdStoresDigits : Obligations.LdBcdStoresDigits := by
  refine fun x => ⟨decodeWord_encode (.ldB x), fun s hwf => ?_⟩
  have ht : exec (.ldB x) s = .next _ := rfl
  have hdigit := memRead_of_exec_ldB hwf ht
  exact ⟨_, ht, hdigit 0 (by decide), hdigit 1 (by decide), hdigit 2 (by decide),
    State.memRead_memWriteBytes_outside (s := s.advancePc) hwf _ (bcdDigits (s.getV x)), rfl, exec_onlyChanges ht⟩

/-! ### LD [I], Vx and LD Vx, [I] (R147, R148) -/

/-- Fx55 leaves every cell outside I, ..., I + x as it was (R147). -/
theorem memRead_of_exec_storeRegs_outside {s t : State} {x : RegNum} (hwf : s.mem.wf = true)
    (h : exec (.storeRegs x) s = .next t) (a : Nat) (hout : ∀ k ≤ x.val, a % 4096 ≠ (s.i.toNat + k) % 4096) :
    t.memRead a = s.memRead a := by
  cases h
  refine State.memRead_memWriteBytes_outside (s := s.advancePc) hwf _ _ a fun k hk => hout k ?_
  rw [s.regsUpTo_length x] at hk
  exact Nat.le_of_lt_succ hk

/-- Settles O44: V0..Vx are the block written at I. -/
theorem storeRegistersAtIndex : Obligations.StoreRegistersAtIndex := by
  refine fun x => ⟨decodeWord_encode (.storeRegs x), fun s hwf => ?_⟩
  have ht : exec (.storeRegs x) s = .next _ := rfl
  exact ⟨_, ht, fun _ => memRead_of_exec_storeRegs hwf ht, memRead_of_exec_storeRegs_outside hwf ht, rfl,
    exec_onlyChanges ht⟩

/-- A read reduces its address by itself (R41). -/
theorem State.memRead_mod (s : State) (a : Nat) : s.memRead (a % Config.memSize) = s.memRead a :=
  congrArg s.mem.get (Nat.mod_mod a Config.memSize)

/-- What each register holds after Fx65 (R148). -/
theorem getV_of_exec_loadRegs {s t : State} {x : RegNum} (h : exec (.loadRegs x) s = .next t) (r : RegNum) :
    t.getV r = if r ≤ x then s.memRead (s.i.toNat + r.val) else s.getV r := by
  have ht : s.advancePc.loadRegs s.i.toNat x = t := Host.Outcome.next.inj h
  rw [← ht]
  exact State.getV_loadRegs s.advancePc s.i.toNat x r

/-- Settles O45, register by register. -/
theorem loadRegistersFromIndex : Obligations.LoadRegistersFromIndex := by
  refine fun x => ⟨decodeWord_encode (.loadRegs x), fun s => ?_⟩
  have ht : exec (.loadRegs x) s = .next _ := rfl
  refine ⟨_, ht, fun r hr => ?_, fun r hr => ?_, rfl, exec_onlyChanges ht⟩
  · rw [getV_of_exec_loadRegs ht, if_pos hr]
    exact (s.memRead_mod _).symm
  · rw [getV_of_exec_loadRegs ht, if_neg (Fin.not_le.2 hr)]

/-- Settles O56: the store leaves I as it was, so the load reads the cells just written; changing the registers between
leaves both I and memory. -/
theorem storeThenLoadRestores : Obligations.StoreThenLoadRestores := by
  intro s t x v' hwf hstore
  have hload : exec (.loadRegs x) { t with v := v' } = .next _ := rfl
  have hi : t.i = s.i := (exec_onlyChanges hstore).2 .i (by simp [instrWritesParts])
  refine ⟨_, hload, fun r hr => ?_⟩
  rw [getV_of_exec_loadRegs hload, if_pos hr, ← memRead_of_exec_storeRegs hwf hstore hr, ← hi]
  rfl

end Sys2Proof.Machine
end

section
/-! PROOFS. The faults and the Tick (spec/60_exceptions.md; O4, O18, O22, O48, O49, O51). RET and CALL are the two
instructions that can fault; every other's frame leaves STATUS alone or enters the wait. -/

namespace Sys2Proof.Machine

/-! ### The Tick (R170) -/

/-- The saturation of a timer at 0 is that of subtraction on natural numbers. -/
theorem countDown_toNat (b : Byte) : (countDown b).toNat = b.toNat - 1 := by
  unfold countDown
  split
  · subst b; rfl
  · bv_omega

/-- Settles O4, by one timer's decrement and the frames of taking an event off the schedule and of the Tick. -/
theorem tickCountsDown : Obligations.TickCountsDown := by
  intro s rest hsch
  refine ⟨_, step_of_cons hsch, rfl, countDown_toNat s.dt, countDown_toNat s.st, ?_, ?_⟩
  · have hst : (State.onTick { s with schedule := rest }).st.toNat = s.st.toNat - 1 := countDown_toNat s.st
    rw [State.tone_iff, hst]
    omega
  · exact ((onlyChanges_withSchedule s rest).trans (onlyChanges_onTick _)).mono (by simp) (by simp)

/-! ### The two faults (R161 to R163) -/

/-- Settles O18: RET on an empty stack is the fault entry. -/
theorem retUnderflowFaults : Obligations.RetUnderflowFaults :=
  fun s h => ⟨_, execRet_empty h, rfl, rfl, onlyChanges_enterFault s _⟩

/-- Settles O22: CALL on a full stack is the fault entry. -/
theorem callOverflowFaults : Obligations.CallOverflowFaults :=
  fun _ s h => ⟨_, execCall_full h, rfl, rfl, onlyChanges_enterFault s _⟩

/-- Settles O51: RET and CALL enter FAULTED by their fault entry only, LD Vx, K enters WAITING, and the others' frame
keeps STATUS. -/
theorem onlyCallAndRetFault : Obligations.OnlyCallAndRetFault := by
  intro i s t hrun h hfault
  obtain ⟨-, hkept⟩ := exec_onlyChanges h
  cases i with
  | ret =>
    obtain ⟨hsp, rfl⟩ | ⟨w, -, -, rfl⟩ := execRet_cases h
    · exact .inr ⟨rfl, hsp, rfl⟩
    · cases hrun.symm.trans hfault
  | call nnn =>
    obtain ⟨hsp, rfl⟩ | ⟨-, rfl⟩ := execCall_cases h
    · exact .inl ⟨⟨nnn, rfl⟩, hsp, rfl⟩
    · cases hrun.symm.trans hfault
  | ldVxK x => cases h; cases hfault
  | _ =>
    have hstatus : t.status = s.status := hkept .status (by simp [instrWritesParts])
    cases (hstatus.trans hrun).symm.trans hfault

/-! ### No legal state stops (R165) -/

/-- With SP at most 15 RET has an entry to read, or faults into a next state. -/
theorem exists_execRet {s : State} (hsp : s.sp.toNat ≤ Config.stackMaxDepth) : ∃ t, execRet s = .next t := by
  by_cases hempty : s.sp = 0
  · exact ⟨_, execRet_empty hempty⟩
  · obtain ⟨w, hw⟩ := State.exists_stackAt (s := s) (Nat.lt_succ_of_le hsp)
    exact ⟨_, execRet_entry hempty hw⟩

theorem exists_execCall (nnn : Addr) (s : State) : ∃ t, execCall nnn s = .next t := by
  rcases Nat.lt_or_ge s.sp.toNat Config.stackMaxDepth with hroom | hfull
  · exact ⟨_, execCall_room hroom⟩
  · exact ⟨_, execCall_full hfull⟩

/-- RET is the one instruction that can stop, and only with SP above 15. -/
theorem exists_exec {s : State} (hsp : s.sp.toNat ≤ Config.stackMaxDepth) (i : Instr) : ∃ t, exec i s = .next t := by
  cases i with
  | ret => exact exists_execRet hsp
  | call nnn => exact exists_execCall nnn s
  | _ => exact ⟨_, rfl⟩

theorem exists_runInstruction {s : State} (hsp : s.sp.toNat ≤ Config.stackMaxDepth) :
    ∃ t, s.runInstruction = .next t := by
  cases hop : decodeWord s.fetchWord with
  | ok i =>
    rw [State.runInstruction_ok hop]
    exact exists_exec hsp i
  | error e => exact ⟨_, State.runInstruction_error hop⟩

/-- A Step answers a next state when the engine is not RUNNING or SP is legal in the state it samples. -/
theorem exists_onStep {s u : State} (h : s.status ≠ .running ∨ u.sp.toNat ≤ Config.stackMaxDepth) :
    ∃ t, s.onStep u = .next t := by
  by_cases hrun : s.status = .running
  · rw [State.onStep_running u hrun]
    exact exists_runInstruction (h.resolve_left (not_not.2 hrun))
  · exact ⟨s, State.onStep_not_running u hrun⟩

/-- Of the events only a Step could stop the model (R169). -/
theorem exists_takeEvent {s : State} (h : s.status ≠ .running ∨ s.sp.toNat ≤ Config.stackMaxDepth) (e : Event) :
    ∃ t, s.takeEvent e = .next t := by
  cases e with
  | step keys rnd => exact exists_onStep (u := s.withInputs keys rnd) h
  | reset | load bytes | tick | keyEvent k | redrawAck => exact ⟨_, rfl⟩

theorem exists_step {s : State} (h : s.status ≠ .running ∨ s.sp.toNat ≤ Config.stackMaxDepth) :
    ∃ t, step s = .next t := by
  cases hsch : s.schedule with
  | nil =>
    rw [step_of_nil hsch]
    exact exists_onStep (u := s.sampleFree) h
  | cons e rest =>
    rw [step_of_cons hsch]
    exact exists_takeEvent (s := { s with schedule := rest }) h e

/-- Settles O48: of the invariant it needs that SP is legal. -/
theorem legalStatesNeverStop : Obligations.LegalStatesNeverStop :=
  fun _ hs => ⟨exists_step (.inr hs.spLegal), exists_exec hs.spLegal⟩

/-! ### FAULTED is left by Reset only (R164) -/

/-- In FAULTED a step that is no Reset leaves the engine alone and adds no event to the schedule. -/
theorem step_of_faulted {s t : State} (hfault : s.status = .faulted) (hnoReset : ∀ e ∈ s.schedule, e ≠ .reset)
    (h : step s = .next t) :
    OnlyChanges s t [] [.mem, .dt, .st, .redraw, .schedule] ∧ ∀ e ∈ t.schedule, e ∈ s.schedule := by
  have hrun : s.status ≠ .running := by simp [hfault]
  cases hsch : s.schedule with
  | nil =>
    rw [step_of_nil hsch, State.onStep_not_running _ hrun] at h
    cases h
    exact ⟨.refl s _ _, fun e he => hsch ▸ he⟩
  | cons e rest =>
    rw [step_of_cons hsch] at h
    have hframe := takeEvent_onlyChanges_of_not_running (s := { s with schedule := rest }) hrun
      (hnoReset e (by simp [hsch])) (fun hwait => absurd (hfault.symm.trans hwait) (by decide)) h
    have hrest : t.schedule = rest := hframe.2 .schedule (by simp)
    exact ⟨((onlyChanges_withSchedule s rest).trans hframe).mono (by simp) (by simp),
      fun e' he' => List.mem_cons_of_mem e (hrest ▸ he')⟩

/-- Settles O49, by induction on the number of steps: each leaves the engine FAULTED and no Reset to come. -/
theorem faultedUntilReset : Obligations.FaultedUntilReset := by
  intro n
  induction n with
  | zero => exact fun s _ _ => ⟨s, rfl, .refl s _ _⟩
  | succ n ih =>
    intro s hfault hnoReset
    obtain ⟨s', hstep⟩ := exists_step (s := s) (.inl (by simp [hfault]))
    obtain ⟨hframe, hsub⟩ := step_of_faulted hfault hnoReset hstep
    have hfault' : s'.status = .faulted := (hframe.2 .status (by simp)).trans hfault
    obtain ⟨t, hrun, hframe'⟩ := ih s' hfault' fun e he => hnoReset e (hsub e he)
    exact ⟨t, (core_run_succ hstep).trans hrun, (hframe.trans hframe').mono (by simp) (by simp)⟩

end Sys2Proof.Machine
end

section
/-! PROOFS. The Reset and Load events (spec/70_reset_and_hazards.md; O2, O3). Both complete in every state; a Load is
the write of one block of bytes at 0x200, or nothing. -/

namespace Sys2Proof.Machine

/-! ### Reset (R190) -/

/-- A Reset leaves the reset state but for the host's side, which it keeps (R190, assumption log 15). -/
theorem onlyChanges_onReset (s : State) : OnlyChanges State.reset s.onReset [] hostParts := by
  refine ⟨fun _ _ => rfl, fun p hp => ?_⟩
  cases p with
  | keys | rnd | samples | schedule => exact absurd (by simp) hp
  | stack | mem | fb => exact fun _ => rfl
  | _ => rfl

/-- Settles O2: the event taken is the Reset, which reads nothing of the state but the host's side. -/
theorem resetEventFromAnyState : Obligations.ResetEventFromAnyState :=
  fun s rest hsch => ⟨State.onReset { s with schedule := rest }, step_of_cons hsch, onlyChanges_onReset _, rfl, rfl,
    rfl, rfl, rfl⟩

/-! ### Load (R191) -/

/-- A Load of more than PROG_MAX bytes is refused whole (R191, D21). -/
theorem State.onLoad_of_too_long (s : State) {bytes : List Byte} (h : bytes.length > Config.progMax) :
    s.onLoad bytes = s :=
  if_pos ((loadError_iff bytes).2 h)

/-- A Load of at most PROG_MAX bytes writes them at PROG_BASE (R191). -/
theorem State.onLoad_of_fits (s : State) {bytes : List Byte} (h : bytes.length ≤ Config.progMax) :
    s.onLoad bytes = s.memWriteBytes Config.progBase bytes :=
  if_neg fun herr => Nat.not_lt.2 h ((loadError_iff bytes).1 herr)

section
variable {s : State} {bytes : List Byte} (hwf : s.mem.wf = true) (hfits : bytes.length ≤ Config.progMax)
include hwf hfits

/-- A program that fits is read back from PROG_BASE on. -/
theorem State.memRead_onLoad_at (k : Nat) (hk : k < bytes.length) :
    (s.onLoad bytes).memRead (Config.progBase + k) = bytes[k] := by
  rw [s.onLoad_of_fits hfits]
  exact State.memRead_memWriteBytes_at hwf _ bytes (hfits.trans (by decide)) k hk

/-- The cells below PROG_BASE and after the program read as before: a program that fits ends at the last cell, so no
byte of it wraps to cell 0. -/
theorem State.memRead_onLoad_outside {a : Nat} (hout : a % Config.memSize < Config.progBase ∨
    Config.progBase + bytes.length ≤ a % Config.memSize) : (s.onLoad bytes).memRead a = s.memRead a := by
  rw [s.onLoad_of_fits hfits]
  refine State.memRead_memWriteBytes_outside hwf _ bytes a fun k hk => ?_
  have hlast : Config.progBase + k < Config.memSize := by
    simp only [Config.progBase, Config.memSize, Config.progMax] at hfits ⊢
    omega
  rw [Nat.mod_eq_of_lt hlast]
  omega

end

/-- The strobe `load_error` is 1 during a Load exactly when it is refused (R36, R191). -/
theorem State.loadErrorOut_load_iff {s : State} {bytes : List Byte} {rest : List Event}
    (hsch : s.schedule = .load bytes :: rest) : s.loadErrorOut = true ↔ bytes.length > Config.progMax := by
  simp [State.loadErrorOut_iff, State.nextEvent_of_cons hsch, loadError_iff]

/-- Settles O3: after the event is taken off the schedule, a program that fits is one block written at 0x200 and a
longer one changes nothing. -/
theorem loadCopiesOrRefuses : Obligations.LoadCopiesOrRefuses := by
  intro s bytes rest hwf hsch
  have hframe : OnlyChanges s (State.onLoad { s with schedule := rest } bytes) [] [.mem, .schedule] :=
    ((onlyChanges_withSchedule s rest).trans (onlyChanges_onLoad _ bytes)).mono (by simp) (by simp)
  refine ⟨_, step_of_cons hsch, (onlyChanges_onLoad _ bytes).2 .schedule (by simp), hframe,
    State.loadErrorOut_load_iff hsch, fun hfits => ⟨State.memRead_onLoad_at hwf hfits, fun a => ?_⟩, fun hlong a => ?_⟩
  · exact State.memRead_onLoad_outside (s := { s with schedule := rest }) hwf hfits
  · rw [State.onLoad_of_too_long _ hlong]
    rfl

end Sys2Proof.Machine
end
